-- ==== Sys2Proof/Word.lean ====
section
/-! DEFINITION. The word types of the GoL life/scan block: the values the spec treats as bits. -/

namespace Sys2Proof

/-- A 32-bit command word (R70), also the width of `STATUS` (R32) and of `ILL_CMD` (R29). -/
abbrev Cmd := BitVec 32

/-- A world: 25 bits, bit `k` the cell of index `k`, 1 alive and 0 dead (R21, R51). -/
abbrev World := BitVec 25

/-- Five line levels, bit `i` the level of line `i`, 1 driven high and 0 driven low (R24, R25). -/
abbrev Lines := BitVec 5

/-- A byte of the entropy source or of the serial stream (R10, R41). -/
abbrev Byte := BitVec 8

end Sys2Proof
end

