-- ==== Sys2Proof/Syntax.lean ====
section
/-! DEFINITION. The commands of the block: one constructor per row of spec/opcode_table.json (R78). -/

namespace Sys2Proof

/-- A command. An operand has the type of its field of the command word, so every `Instr` is a command the encoding
admits (R72 to R74, R76, R77). -/
inductive Instr where
  /-- NOP: no operation (R109). -/
  | nop
  /-- STEP: advance one generation (R104). -/
  | step
  /-- RAND: re-randomize every cell (R106). -/
  | rand
  /-- LOAD: write the world from `DATA` (R107). -/
  | load (data : BitVec 25)
  /-- CPL: complement every cell (R108). -/
  | cpl
  /-- LIGHT: drive row line `ROW` and column line `COL`, on or off (R142). -/
  | light (on : Bool) (row col : BitVec 3)
  /-- SCAN: paint the world once (R144). -/
  | scan
deriving DecidableEq, Repr

end Sys2Proof
end

