-- ==== Sys2Proof/WellFormed.lean ====
section
/-! DEFINITION. Well-formedness. `Instr` holds operands of the fields' own widths, so nothing about an `Instr` is left to
check; what can be ill formed is a command as an assembler line writes it, with operands that are numbers of any size or
grid rows of any text (R83, R85). This file has those lines and the checks on them. -/

namespace Sys2Proof

/-- One command of assembler text: the seven commands of R83 and the pseudo-instructions of R85, operands as written. -/
inductive Asm where
  | nop
  | step
  | rand
  | load (data : Nat)
  | cpl
  | light (row col : Nat) (on : Bool)
  | scan
  | lightOn (row col : Nat)
  | lightOff (row col : Nat)
  | clear
  | fill
  | loadg (grid : List (List Char))
  | paint
deriving DecidableEq, Repr

/-- `data25` lies in `[0, 0x1FF_FFFF]` (R83). -/
def dataInRange (data : Nat) : Bool := data ≤ 0x1FFFFFF

/-- `row` or `col` lies in `[0, 7]` (R83). -/
def indexInRange (i : Nat) : Bool := i ≤ 7

/-- A grid row of `LOADG` is five characters from `X` and `.` (R85). -/
def gridRowOk (row : List Char) : Bool := row.length == 5 && row.all fun ch => ch == 'X' || ch == '.'

/-- A grid of `LOADG` is five such rows (R85). -/
def gridOk (grid : List (List Char)) : Bool := grid.length == 5 && grid.all gridRowOk

/-- The line is a command and not an assembler error: "An operand out of its range (`data25 > 0x1FF_FFFF`, `row` or
`col` > 7) is an assembler error, not an encoding." (R83, R85) -/
def asmWellFormed : Asm → Bool
  | .load data => dataInRange data
  | .light row col _ => indexInRange row && indexInRange col
  | .lightOn row col => indexInRange row && indexInRange col
  | .lightOff row col => indexInRange row && indexInRange col
  | .loadg grid => gridOk grid
  | .nop => true
  | .step => true
  | .rand => true
  | .cpl => true
  | .scan => true
  | .clear => true
  | .fill => true
  | .paint => true

end Sys2Proof
end

