-- ==== Sys2Proof/Decode.lean ====
section
/-! DEFINITION. The decoder, total on every 32-bit word (R84), the encoder (R72 to R74) and the mask and match table
(R82). All of the encoding is spec 30_encoding.md. -/

namespace Sys2Proof

/-- Why a word is ILLEGAL: the two causes of R221. -/
inductive Illegal where
  /-- The opcode is one of `0x7` to `0xF` (R79). -/
  | reservedOpcode
  /-- The opcode is defined and a bit its format marks "must be 0" is 1 (R80). -/
  | reservedBit
deriving DecidableEq, Repr

/-- What a word decodes as: a command, or ILLEGAL with its cause. -/
inductive Decoded where
  | command (i : Instr)
  | illegal (why : Illegal)
deriving DecidableEq, Repr

/-- The command decoded, if the word is one. -/
def Decoded.instr? : Decoded → Option Instr
  | .command i => some i
  | .illegal _ => none

/-- `OP = cmd[31:28]` (R71). -/
def opcodeField (w : Cmd) : BitVec 4 := w.extractLsb' 28 4

/-- Format N: bits 27:0 must be 0 (R72). -/
def decodeFormatN (w : Cmd) (i : Instr) : Decoded :=
  if w.extractLsb' 0 28 = 0#28 then .command i else .illegal .reservedBit

/-- Format L: bits 27:25 must be 0, `DATA = cmd[24:0]` (R73). -/
def decodeFormatL (w : Cmd) : Decoded :=
  if w.extractLsb' 25 3 = 0#3 then .command (.load (w.extractLsb' 0 25)) else .illegal .reservedBit

/-- Format D: bits 26:7 and bit 3 must be 0, `ON = cmd[27]`, `ROW = cmd[6:4]`, `COL = cmd[2:0]` (R74). -/
def decodeFormatD (w : Cmd) : Decoded :=
  if w.extractLsb' 7 20 = 0#20 ∧ w.getLsbD 3 = false then
    .command (.light (w.getLsbD 27) (w.extractLsb' 4 3) (w.extractLsb' 0 3))
  else .illegal .reservedBit

/-- Decode, total on every 32-bit word (R84). -/
def decode (w : Cmd) : Decoded :=
  match (opcodeField w).toNat with
  | 0x0 => decodeFormatN w .nop
  | 0x1 => decodeFormatN w .step
  | 0x2 => decodeFormatN w .rand
  | 0x3 => decodeFormatL w
  | 0x4 => decodeFormatN w .cpl
  | 0x5 => decodeFormatD w
  | 0x6 => decodeFormatN w .scan
  | _ => .illegal .reservedOpcode

/-- The word of a command, field by field from the formats (R72 to R74, R78). -/
def encode : Instr → Cmd
  | .nop => 0x0#4 ++ 0#28
  | .step => 0x1#4 ++ 0#28
  | .rand => 0x2#4 ++ 0#28
  | .load data => 0x3#4 ++ 0#3 ++ data
  | .cpl => 0x4#4 ++ 0#28
  | .light on row col => 0x5#4 ++ BitVec.ofBool on ++ 0#20 ++ row ++ 0#1 ++ col
  | .scan => 0x6#4 ++ 0#28

/-- The command an instruction of `nbits` bits with value `w` decodes as, none where it is ILLEGAL. A command word is one
32-bit parallel value with no byte order (R54, R70), so the table's bit numbers are the word's own. -/
def decodeTableWord (nbits w : Nat) : Option Instr :=
  (decode (BitVec.ofNat 32 (w % 2 ^ nbits))).instr?

/-- One row of the mask and match table (R82). -/
structure OpcodeRow where
  mnemonic : String
  matchBits : Cmd
  mask : Cmd
deriving DecidableEq, Repr

/-- "A word selects a command iff `(cmd & mask) == match`" (R82). -/
def OpcodeRow.selects (row : OpcodeRow) (w : Cmd) : Bool := w &&& row.mask == row.matchBits

/-- The row of a command's mnemonic in the table of R82. -/
def opcodeRowOf : Instr → OpcodeRow
  | .nop => ⟨"NOP", 0x00000000#32, 0xFFFFFFFF#32⟩
  | .step => ⟨"STEP", 0x10000000#32, 0xFFFFFFFF#32⟩
  | .rand => ⟨"RAND", 0x20000000#32, 0xFFFFFFFF#32⟩
  | .load _ => ⟨"LOAD", 0x30000000#32, 0xFE000000#32⟩
  | .cpl => ⟨"CPL", 0x40000000#32, 0xFFFFFFFF#32⟩
  | .light _ _ _ => ⟨"LIGHT", 0x50000000#32, 0xF7FFFF88#32⟩
  | .scan => ⟨"SCAN", 0x60000000#32, 0xFFFFFFFF#32⟩

/-- The mask and match table (R82), in the table's order. -/
def opcodeTable : List OpcodeRow :=
  [.nop, .step, .rand, .load 0, .cpl, .light false 0 0, .scan].map opcodeRowOf

end Sys2Proof
end

