-- ==== Sys2Proof/Machine/Bits.lean ====
section
/-! DEFINITION. Bit helpers: writing one bit of a word and building a word from its bits (R8). -/

namespace Sys2Proof.Machine

/-- `v` with bit `i` set to `b` (`row[r] <- v`, R9). An `i` at or above the width changes nothing. -/
def writeBit {n : Nat} (v : BitVec n) (i : Nat) (b : Bool) : BitVec n :=
  if b then v ||| BitVec.twoPow n i else v &&& ~~~(BitVec.twoPow n i)

/-- The `n`-bit word whose bit `k` is `f k`, bit 0 the least significant (R8). -/
def ofBits (f : Nat → Bool) : (n : Nat) → BitVec n
  | 0 => 0#0
  | n + 1 => BitVec.cons (f n) (ofBits f n)

end Sys2Proof.Machine
end

