-- ==== Sys2Proof/Config.lean ====
section
/-! DEFINITION. The parameters of R7 that are constants, and the free values: what the environment answers where nothing
has fixed its answer. -/

namespace Sys2Proof.Config

/-- `N`: rows and columns of the world (R7). -/
def side : Nat := 5

/-- `CELLS`: number of cells (R7). -/
def cells : Nat := 25

/-- `W_BITS`: storage per cell in bits (R7, D2). -/
def cellBits : Nat := 1

/-- `CMD_BITS`: the width of a command word (R7, D4). -/
def cmdBits : Nat := 32

/-- `BAUD`: the serial rate (R7). No step reads it: UART framing is out of scope (R5). -/
def baud : Nat := 115200

/-- `GEN_TICKS`: a generation occurs in the frame where `tick_count` exceeds this (R7, R173; conflict C1). -/
def genTicks : Nat := 10

/-- `STAG_LIMIT`: re-randomize when `same_board_count` exceeds this (R7, R173; conflict C5). -/
def stagLimit : Nat := 50

/-- `B_COOLDOWN`: the bound of `b_ignore_count` (R7, R177; conflict C5). -/
def bCooldown : Nat := 100

/-- `T_DWELL_MS`: the LED on-time in milliseconds (R7). D21 leaves its exact value OPEN. DESIGN CHOICE (log entry 8, safe):
the spec's default, 1, is taken as a constant. No step reads it: the model has no clock (R146). -/
def dwellMs : Nat := 1

/-- `T_DEBOUNCE_MS`: the delay after a press in milliseconds (R7). D21 leaves its exact value OPEN. DESIGN CHOICE (log
entry 8, safe): the spec's default, 20, is taken as a constant. No step reads it (R192). -/
def debounceMs : Nat := 20

/-- `F_CLK`: the block's clock frequency, OPEN (R7, D21). It only converts `T_DWELL_MS` to cycles, and no step reads it. -/
opaque clockHz : Nat

/-- The dwell in clock cycles, the one use the spec has for `F_CLK` (R7). No step reads it.
PRESUMED (log entry 8, unsafe for claims about cycles): `F_CLK` is taken to be in hertz. DESIGN CHOICE (log entry 8, unsafe
for claims about cycles): a fraction of a cycle is rounded up, so that the dwell is no shorter than R232's lower bound. -/
def dwellCycles : Nat := (dwellMs * clockHz + 999) / 1000

/-- Free value: the `n`-th byte of the entropy source where the state fixes none (`DrawByte`, R10, D32; log entry 1, safe). -/
opaque freeByte : Nat → Byte

/-- Free value: the `n`-th reading of button line A where the state fixes none, true for high (`DrawLevel(A)`, R10, R171;
log entry 1, safe). -/
opaque freeLevelA : Nat → Bool

/-- Free value: the `n`-th reading of button line B where the state fixes none, true for high (`DrawLevel(B)`, R10, R171;
log entry 1, safe). -/
opaque freeLevelB : Nat → Bool

/-- Free value: whether the `n`-th serial byte is kept where the state does not fix it (`DrawOk`, R10, R182; log entry 1,
safe). -/
opaque freeSerialOk : Nat → Bool

/-- Free value: whether the `n`-th line write takes effect where the state does not fix it (`DrawOk`, R10, R152; log
entry 1, safe). -/
opaque freeLineOk : Nat → Bool

/-- Free value: how many row bytes the host writes before the `n`-th sequencer step that finds some left, where the state
does not fix it (`SERIAL_INTERLEAVE`, R65, R178, D20; log entry 7, safe). -/
opaque freeBurst : Nat → Nat

end Sys2Proof.Config
end

