-- ==== Sys2Proof/Machine/State.lean ====
section
/-! DEFINITION. The state of the whole machine: the block, its ports, the host, and the model's own fields (the
environment's answers, the OPEN parameters, the driver and the outbox). INVENTORY.md, State, lists every field with its
rule. -/

namespace Sys2Proof.Machine

/-- Why the machine stops with a fault. No constructor: no step of this machine stops. The block's one fault, ILL, is a
recorded status after which the block goes on (R221, R222), so it is a next state; lost line writes and lost serial bytes
are no faults (R224). -/
inductive Fault where
deriving DecidableEq, Repr

/-- Why the model gives a command no meaning. -/
inductive Refusal where
  /-- Raised by exec's arm of an instruction not modelled yet. No arm raises it: every command has its meaning. Safe. -/
  | notModelled (mnemonic : String)
deriving DecidableEq, Repr

/-- The hidden state of the scan sequencer (R30). -/
inductive ScanState where
  /-- `IDLE`: no SCAN in progress. -/
  | idle
  /-- `CELL(k)`: the next block step visits cell `k` (R145). -/
  | cell (k : Fin 25)
  /-- `DWELL(k)`: the LED of the live cell `k` is on (R146). -/
  | dwell (k : Fin 25)
deriving DecidableEq, Repr

/-- The frame phase of the host (R40). -/
inductive Phase where
  | boot | f1 | f2 | f3 | f4 | f5 | f6 | f7
deriving DecidableEq, Repr

/-- Where the host stands in its sequence: the frame phase (R40), split at each command the host waits for (R183) and at
each delay (R192). DESIGN CHOICE (log entry 6, safe): the spec names the phases only. -/
inductive FramePoint where
  /-- BOOT: the host issues RAND next (R253). -/
  | boot
  /-- BOOT: the boot RAND is issued (R253). -/
  | bootDone
  /-- F1: the tick comes next (R172). -/
  | f1
  /-- F2: the test of `tick_count` comes next (R173). -/
  | f2
  /-- F2: the STEP is issued; clear, compare and the stagnation test come next (R173). -/
  | f2Stepped
  /-- F2: the stagnation RAND, if any, is issued; `tick_count <- 0` comes next (R173). -/
  | f2Done
  /-- F3: the first sample of A comes next (R174). -/
  | f3
  /-- F3: the debounce delay comes next (R174, R192). -/
  | f3Delay
  /-- F3: the host issues RAND next (R174). -/
  | f3Issue
  /-- F3: the RAND is issued; the flags and the clear come next (R174). -/
  | f3Done
  /-- F4: the release test of A comes next (R175). -/
  | f4
  /-- F5: the guard and the sample of B come next (R176). -/
  | f5
  /-- F5: the debounce delay comes next (R176, R192). -/
  | f5Delay
  /-- F5: the host issues CPL next (R176). -/
  | f5Issue
  /-- F5: the CPL is issued; the flags and the clear come next (R176). -/
  | f5Done
  /-- F6: the cooldown comes next (R177). -/
  | f6
  /-- F7: the host issues SCAN next (R178). -/
  | f7
  /-- F7: the SCAN is issued; when it has completed the remaining row bytes go out and the frame ends (R178). -/
  | f7Done
deriving DecidableEq, Repr

/-- Who presents commands to the block. DESIGN CHOICE (log entry 3): the frame controller is the spec's host; a list of
words stands for an outside program such as those of 95_test_vectors.md section 3. -/
inductive Driver where
  /-- The frame controller (R170). -/
  | frameController
  /-- An outside program: the words it has still to present, in order. -/
  | program (words : List Cmd)
deriving DecidableEq, Repr

/-- One kind of draw (R10): the answers already fixed, the next one first, and how many answers have been taken. Once
none is fixed, the next answer is a free value of `Config` at that count. DESIGN CHOICE (log entry 1, safe). -/
structure Source (α : Type) where
  queued : List α
  taken : Nat
deriving DecidableEq, Repr

/-- The environment as the source of draws (R6, R10, R42). -/
structure Env where
  /-- `DrawByte()`: the answers of the entropy source on `rnd_byte` (R43, R233). -/
  bytes : Source Byte
  /-- `DrawLevel(A)`: the readings of button line A, true for high (R171, R234). -/
  levelA : Source Bool
  /-- `DrawLevel(B)`: the readings of button line B, true for high (R171, R234). -/
  levelB : Source Bool
  /-- `DrawOk()` of a serial byte write (R182, R235). -/
  serialOk : Source Bool
  /-- `DrawOk()` of a line write (R152). -/
  lineOk : Source Bool
  /-- `SERIAL_INTERLEAVE`: how many row bytes go out before a sequencer step (R65, R178). -/
  burst : Source Nat
deriving DecidableEq, Repr

/-- The OPEN parameters that a step reads (R7). No step writes them. -/
structure Params where
  /-- `LINE_WRITE_MAY_FAIL` (R7, R152, D24). -/
  lineWriteMayFail : Bool
  /-- `SERIAL_MAY_DROP` (R7, R182, D25). -/
  serialMayDrop : Bool
deriving DecidableEq, Repr

/-- The state of the machine (R20, R33 to R43). -/
structure State where
  /-- `W` (R21). -/
  world : World
  /-- `row[0..4]` (R24). -/
  row : Lines
  /-- `col[0..4]` (R25). -/
  col : Lines
  /-- `ILL` (R29). -/
  ill : Bool
  /-- `ILL_CMD` (R29). -/
  illCmd : Cmd
  /-- `sstate` (R30). -/
  sstate : ScanState
  /-- Port `cmd` (R43). -/
  cmd : Cmd
  /-- Port `cmd_valid`: a command is presented and not yet accepted (R43, R75). -/
  cmdValid : Bool
  /-- Port `rst` (R43, R250). -/
  rst : Bool
  /-- `P` (R33). -/
  prev : World
  /-- `tick_count` (R34). -/
  tickCount : Nat
  /-- `same_board_count` (R35). -/
  sameBoardCount : Nat
  /-- `a_ignore` (R36). -/
  aIgnore : Bool
  /-- `b_ignore` (R37). -/
  bIgnore : Bool
  /-- `b_ignore_count` (R38). -/
  bIgnoreCount : Nat
  /-- `update_serial` (R39). -/
  updateSerial : Bool
  /-- Where the host stands; the frame phase of R40 is a function of it. -/
  point : FramePoint
  /-- `S`, oldest byte first (R41). -/
  serial : List Byte
  /-- The model's own: the row bytes F7 has still to write, the next one first (R178; log entry 7). -/
  outbox : List Byte
  /-- The model's own: who presents commands (log entry 3). -/
  driver : Driver
  /-- The model's own: the environment's answers (R10; log entry 1). -/
  env : Env
  /-- The model's own: the OPEN parameters (R7; log entry 2). -/
  params : Params
deriving DecidableEq, Repr

/-- No answer fixed and none taken. DESIGN CHOICE (log entry 1). -/
def Env.unset : Env :=
  { bytes := ⟨[], 0⟩, levelA := ⟨[], 0⟩, levelB := ⟨[], 0⟩, serialOk := ⟨[], 0⟩, lineOk := ⟨[], 0⟩, burst := ⟨[], 0⟩ }

/-- The spec's defaults (R7). -/
def Params.default : Params := { lineWriteMayFail := false, serialMayDrop := true }

/-- The machine right after reset: R251 for the block, R252 for the host; the ports and the model's own fields as log
entries 1 to 7 say. -/
def State.reset : State :=
  { world := 0x0000000#25
    row := 0b00000#5
    col := 0b11111#5
    ill := false
    illCmd := 0x00000000#32
    sstate := .idle
    cmd := 0x00000000#32
    cmdValid := false
    rst := false
    prev := 0x0000000#25
    tickCount := 0
    sameBoardCount := 0
    aIgnore := false
    bIgnore := false
    bIgnoreCount := 0
    updateSerial := false
    point := .boot
    serial := []
    outbox := []
    driver := .frameController
    env := Env.unset
    params := Params.default }

/-- Whose turn the next step is (R6, R61; log entry 6). -/
inductive Turn where
  /-- `rst` is asserted (R250). -/
  | reset
  /-- The scan sequencer, which is not idle (R145, R146). -/
  | sequencer
  /-- The block accepts the presented command (R75). -/
  | accept
  /-- The driver: the frame controller or the outside program (R170). -/
  | driver
deriving DecidableEq, Repr

end Sys2Proof.Machine
end

