-- ==== Sys2Proof/Machine/Operands.lean ====
section
/-! DEFINITION. Operand forms and cell addressing: LIGHT's indices (R76), LOAD's data (R77), the cell index (R51), the
toroidal neighbours (R52, R53). -/

namespace Sys2Proof.Machine

/-- The line a `ROW` or `COL` field names: 0 to 4 name a line, 5, 6 and 7 name none (R59, R76). -/
def lineOf (field : BitVec 3) : Option (Fin 5) :=
  if h : field.toNat < 5 then some ⟨field.toNat, h⟩ else none

/-- The world a `DATA` field stands for: cell `k` is `DATA[k]`, no extension, no shift (R77). -/
def worldOf (data : BitVec 25) : World := data

/-- The index `k = 5*r + c` of cell `(r, c)` (R51). -/
def cellIndex (r c : Fin 5) : Fin 25 := ⟨5 * r.val + c.val, by omega⟩

/-- The row `r = k div 5` of cell `k` (R51). -/
def cellRow (k : Fin 25) : Fin 5 := ⟨k.val / 5, by omega⟩

/-- The column `c = k mod 5` of cell `k` (R51). -/
def cellCol (k : Fin 25) : Fin 5 := ⟨k.val % 5, by omega⟩

/-- The cell `W(r, c)` of a world (R9, R51). -/
def cellAt (w : World) (r c : Fin 5) : Bool := w.getLsbD (cellIndex r c).val

/-- The eight offsets `(dr, dc)` in `{-1, 0, 1}` squared without `(0, 0)`, in the order of R53. -/
def ringOffsets : List (Int × Int) :=
  [(-1, -1), (-1, 0), (-1, 1), (0, -1), (0, 1), (1, -1), (1, 0), (1, 1)]

/-- `x mod 5`, the mathematical modulus with result in `[0, 5)` (R8). -/
def mod5 (x : Int) : Nat := (x % 5).toNat

/-- The index `5*((r+dr) mod 5) + ((c+dc) mod 5)` of the neighbour of cell `k` at an offset (R52, R53). -/
def neighbourAt (k : Fin 25) (offset : Int × Int) : Nat :=
  5 * mod5 ((cellRow k).val + offset.1) + mod5 ((cellCol k).val + offset.2)

/-- The eight toroidal neighbours of cell `k`, in the order of R53. -/
def neighbours (k : Fin 25) : List Nat := ringOffsets.map (neighbourAt k)

end Sys2Proof.Machine
end

