-- ==== Sys2Proof/Machine/Flags.lean ====
section
/-! DEFINITION. The status the block computes from its state, and the values of its output ports: QUIESCENT (R27), BUSY
(R28), STATUS (R32), the ports (R43), the idle lines (R26) and the lit set (R141). -/

namespace Sys2Proof.Machine

/-- `QUIESCENT = (W == 0)` (R27, R110). -/
def State.quiescent (s : State) : Bool := s.world == 0#25

/-- `BUSY = (sstate != IDLE)` (R28). -/
def State.busy (s : State) : Bool := s.sstate != .idle

/-- `STATUS`: bit 0 QUIESCENT, bit 1 BUSY, bit 2 ILL, bits 31:3 always 0 (R32). -/
def State.status (s : State) : BitVec 32 :=
  0#29 ++ BitVec.ofBool s.ill ++ BitVec.ofBool s.busy ++ BitVec.ofBool s.quiescent

/-- Port `cmd_ready`, `NOT BUSY` (R43). -/
def State.cmdReady (s : State) : Bool := !s.busy

/-- Port `row_o` (R43). -/
def State.rowOut (s : State) : Lines := s.row

/-- Port `col_o` (R43). -/
def State.colOut (s : State) : Lines := s.col

/-- Port `world_o` (R23, R43). -/
def State.worldOut (s : State) : World := s.world

/-- Port `status_o` (R43). -/
def State.statusOut (s : State) : BitVec 32 := s.status

/-- Port `ill_cmd_o` (R43). -/
def State.illCmdOut (s : State) : Cmd := s.illCmd

/-- Every row line is low and every column line is high (R26). -/
def State.linesIdle (s : State) : Bool := s.row == 0b00000#5 && s.col == 0b11111#5

/-- The LED of cell `(r, c)` is lit: `row[r] = 1` and `col[c] = 0` (R140, R141). -/
def State.lit (s : State) (r c : Fin 5) : Bool := s.row.getLsbD r.val && !s.col.getLsbD c.val

/-- The number of live cells of a world (`L` of R147). -/
def liveCells (w : World) : Nat := ((List.range 25).filter fun k => w.getLsbD k).length

/-- The frame phase of the point where the host stands (R40). -/
def State.phase (s : State) : Phase :=
  match s.point with
  | .boot => .boot
  | .bootDone => .boot
  | .f1 => .f1
  | .f2 => .f2
  | .f2Stepped => .f2
  | .f2Done => .f2
  | .f3 => .f3
  | .f3Delay => .f3
  | .f3Issue => .f3
  | .f3Done => .f3
  | .f4 => .f4
  | .f5 => .f5
  | .f5Delay => .f5
  | .f5Issue => .f5
  | .f5Done => .f5
  | .f6 => .f6
  | .f7 => .f7
  | .f7Done => .f7

end Sys2Proof.Machine
end

