-- ==== Sys2Proof/Machine/Ops.lean ====
section
/-! DEFINITION. The operations the meanings share: draws, line writes, the presented command, the ILL fault, reset and
serial writes. -/

namespace Sys2Proof.Machine

/-! ### Draws (R10) -/

/-- The next answer of a source and the source after it: the oldest fixed answer, or the free value at this count. -/
def drawFrom {α : Type} (free : Nat → α) (src : Source α) : α × Source α :=
  match src.queued with
  | x :: rest => (x, ⟨rest, src.taken + 1⟩)
  | [] => (free src.taken, ⟨[], src.taken + 1⟩)

/-- The next `n` answers of a source in the order drawn, and the source after them. -/
def drawMany {α : Type} (free : Nat → α) : Nat → Source α → List α × Source α
  | 0, src => ([], src)
  | n + 1, src =>
    let first := drawFrom free src
    let later := drawMany free n first.2
    (first.1 :: later.1, later.2)

/-- `n` answers `DrawByte()` of the entropy source (R10, R106). -/
def drawBytes (n : Nat) (s : State) : List Byte × State :=
  let d := drawMany Config.freeByte n s.env.bytes
  (d.1, { s with env := { s.env with bytes := d.2 } })

/-- `pressed(A)`: one reading of line A; true when the line is low (R171). -/
def pressedA (s : State) : Bool × State :=
  let d := drawFrom Config.freeLevelA s.env.levelA
  (!d.1, { s with env := { s.env with levelA := d.2 } })

/-- `pressed(B)`: one reading of line B; true when the line is low (R171). -/
def pressedB (s : State) : Bool × State :=
  let d := drawFrom Config.freeLevelB s.env.levelB
  (!d.1, { s with env := { s.env with levelB := d.2 } })

/-- `DrawOk()` of one serial byte write; without `SERIAL_MAY_DROP` no draw is taken and the byte is kept (R182). -/
def serialOk (s : State) : Bool × State :=
  if s.params.serialMayDrop then
    let d := drawFrom Config.freeSerialOk s.env.serialOk
    (d.1, { s with env := { s.env with serialOk := d.2 } })
  else (true, s)

/-- `DrawOk()` of one line write; without `LINE_WRITE_MAY_FAIL` no draw is taken and the line takes its value (R152). -/
def lineOk (s : State) : Bool × State :=
  if s.params.lineWriteMayFail then
    let d := drawFrom Config.freeLineOk s.env.lineOk
    (d.1, { s with env := { s.env with lineOk := d.2 } })
  else (true, s)

/-- How many row bytes the host writes before this sequencer step (`SERIAL_INTERLEAVE`, R65, R178). -/
def drawBurst (s : State) : Nat × State :=
  let d := drawFrom Config.freeBurst s.env.burst
  (d.1, { s with env := { s.env with burst := d.2 } })

/-! ### The world and the lines -/

/-- Every command that writes `W` writes all 25 bits in one step (R56). -/
def setWorld (w : World) (s : State) : State := { s with world := w }

/-- `sstate <- v` (R30). -/
def setScan (v : ScanState) (s : State) : State := { s with sstate := v }

/-- `row[r] <- v`, lost where the write fails (R24, R152). -/
def writeRow (r : Fin 5) (v : Bool) (s : State) : State :=
  let d := lineOk s
  if d.1 then { d.2 with row := writeBit d.2.row r.val v } else d.2

/-- `col[c] <- v`, lost where the write fails (R25, R152). -/
def writeCol (c : Fin 5) (v : Bool) (s : State) : State :=
  let d := lineOk s
  if d.1 then { d.2 with col := writeBit d.2.col c.val v } else d.2

/-- The two line writes of one LIGHT, in one step: on drives row high and column low, off does the inverse (R142, D10).
DESIGN CHOICE (log entry 9, safe): where line writes may fail, the row's draw is taken before the column's. -/
def driveCell (r c : Fin 5) (on : Bool) (s : State) : State := writeCol c (!on) (writeRow r on s)

/-! ### The presented command (R43, R75) -/

/-- `cmd` and `cmd_valid` present the word (R183). `cmd` changes nowhere else (log entry 12). -/
def present (w : Cmd) (s : State) : State := { s with cmd := w, cmdValid := true }

/-- The presented command is taken from the port in the step that accepts it (R75). DESIGN CHOICE (log entry 12, unsafe for
claims about the idle port): `cmd_valid` falls in that step and `cmd` keeps the accepted word until the next is presented. -/
def takeCommand (s : State) : State := { s with cmdValid := false }

/-- The word `w` on the port of a block that is ready, so that it is accepted next (R43, R75; log entry 4). -/
def presentReady (w : Cmd) (s : State) : State :=
  { s with cmd := w, cmdValid := true, rst := false, sstate := .idle }

/-- The command word whose bits are numbered as the opcode table numbers them (R70; one parallel word, no byte order, R54). -/
def tableWord (nbits w : Nat) : Cmd := BitVec.ofNat 32 (w % 2 ^ nbits)

/-- The host goes on to a point of its sequence (R40). -/
def goTo (p : FramePoint) (s : State) : State := { s with point := p }

/-! ### The one fault, and reset -/

/-- `raise ILL(cmd)`, the block's one exception (R221): `ILL_CMD` takes the first illegal word since reset, `ILL` is set,
and no other state changes. There is no trap entry beyond this (R229) and no return (R230); only reset clears it. -/
def raiseIll (w : Cmd) (s : State) : State :=
  { s with illCmd := if s.ill then s.illCmd else w, ill := true }

/-- Asserting `rst` puts block and host in their reset states (R250 to R252). What is outside the machine stays: the
environment, the parameters and the driver. DESIGN CHOICE (log entry 5): one step with `rst` is one reset pulse. -/
def applyReset (s : State) : State :=
  { State.reset with driver := s.driver, env := s.env, params := s.params }

/-- Whose turn the next step is: reset before all else (R250), then the busy sequencer, while which a presented command is
held (R75), then a presented command, then the driver, which acts only when its command has completed (R183). -/
def State.turn (s : State) : Turn :=
  if s.rst then .reset
  else if s.busy then .sequencer
  else if s.cmdValid then .accept
  else .driver

/-! ### Serial output (R41, R182) -/

/-- One byte write: appended to `S` only if the write succeeds; either way the host goes on (R182). -/
def writeSerial (b : Byte) (s : State) : State :=
  let d := serialOk s
  if d.1 then { d.2 with serial := d.2.serial ++ [b] } else d.2

/-- `emit(b0, b1, …)` (R9, R182). -/
def emit : List Byte → State → State
  | [], s => s
  | b :: rest, s => emit rest (writeSerial b s)

end Sys2Proof.Machine
end

