-- ==== Sys2Proof/Machine/Life.lean ====
section
/-! DEFINITION. The life unit: neighbour sum, birth/death look-up table, and the commands NOP, STEP, RAND, LOAD and CPL
(40_life_transition.md). -/

namespace Sys2Proof.Machine

/-! ### Combinational parts -/

/-- `nsum(w, k)`: the number of live cells among the eight toroidal neighbours of cell `k` (R100). -/
def nsum (w : World) (k : Fin 25) : Nat := ((neighbours k).map fun j => (w.getLsbD j).toNat).sum

/-- The birth/death look-up table, row `a`, entries `n = 0 … 8` (R102). -/
def lutRow : Bool → List Bool
  | false => [false, false, false, true, false, false, false, false, false]
  | true => [false, false, true, true, false, false, false, false, false]

/-- `LUT[a][n]` (R102). The sum never exceeds 8 (R101), so the default is never read by STEP. -/
def lut (a : Bool) (n : Nat) : Bool := (lutRow a).getD n false

/-- The next value of cell `k` of a snapshot (R104). -/
def nextCell (w : World) (k : Nat) : Bool :=
  if h : k < 25 then lut (w.getLsbD k) (nsum w ⟨k, h⟩) else false

/-- The next generation of a snapshot, all 25 cells from the snapshot alone (R57, R104). -/
def nextWorld (w : World) : World := ofBits (nextCell w) 25

/-! ### State changes of the commands -/

/-- STEP: `W <- nxt`, all 25 bits in one step (R104). -/
def stepWorld (s : State) : State := setWorld (nextWorld s.world) s

/-- The world of 25 random bytes: bit 0 of byte `k` is cell `k` (R106). -/
def worldOfBytes (bytes : List Byte) : World := ofBits (fun k => (bytes.getD k 0#8).getLsbD 0) 25

/-- RAND: draw for `k = 0 … 24` in order, then write `W` once (R106, D8). -/
def randWorld (s : State) : State :=
  let d := drawBytes 25 s
  setWorld (worldOfBytes d.1) d.2

/-- LOAD: `W <- cmd[24:0]` (R107). -/
def loadWorld (data : BitVec 25) (s : State) : State := setWorld (worldOf data) s

/-- CPL: `W <- W XOR 0x1FFFFFF` (R108). -/
def complementWorld (s : State) : State := setWorld (s.world ^^^ 0x1FFFFFF#25) s

/-! ### Meanings -/

/-- NOP: nothing; no state changes (R109). -/
def execNop (s : State) : Host.Outcome State Fault Refusal := .next s

/-- STEP: advance one generation; no faults (R104, R220). -/
def execStep (s : State) : Host.Outcome State Fault Refusal := .next (stepWorld s)

/-- RAND: re-randomize every cell; no faults (R106, R220). -/
def execRand (s : State) : Host.Outcome State Fault Refusal := .next (randWorld s)

/-- LOAD: write the world from the command word (R107). A set reserved bit is ILLEGAL before it is a LOAD (R80). -/
def execLoad (data : BitVec 25) (s : State) : Host.Outcome State Fault Refusal := .next (loadWorld data s)

/-- CPL: complement every cell; no faults (R108, R220). -/
def execCpl (s : State) : Host.Outcome State Fault Refusal := .next (complementWorld s)

end Sys2Proof.Machine
end

