-- ==== Sys2Proof/Machine/Scan.lean ====
section
/-! DEFINITION. The scan sequencer: the commands LIGHT and SCAN and the block steps a SCAN takes by itself
(41_scan_sequencer.md). -/

namespace Sys2Proof.Machine

/-- LIGHT's line writes: none unless both indices name a line (R142, R143, D9). -/
def lightLines (on : Bool) (row col : BitVec 3) (s : State) : State :=
  match lineOf row, lineOf col with
  | some r, some c => driveCell r c on s
  | some _, none => s
  | none, some _ => s
  | none, none => s

/-- Accepting SCAN: `sstate <- CELL(0)`, no line changes (R144). -/
def startScan (s : State) : State := setScan (.cell 0) s

/-- `next(k)`: `CELL(k+1)` for `k < 24`, and `next(24) = IDLE` (R147). -/
def scanNext (k : Fin 25) : ScanState := if h : k.val < 24 then .cell ⟨k.val + 1, by omega⟩ else .idle

/-- SCAN cell step: a live cell's LED is set on and dwells, a dead cell's is set off without a dwell (R145). -/
def scanCell (k : Fin 25) (s : State) : State :=
  if s.world.getLsbD k.val then setScan (.dwell k) (driveCell (cellRow k) (cellCol k) true s)
  else setScan (scanNext k) (driveCell (cellRow k) (cellCol k) false s)

/-- SCAN dwell step: the dwell ends and the LED is set off (R146). -/
def scanDwell (k : Fin 25) (s : State) : State :=
  setScan (scanNext k) (driveCell (cellRow k) (cellCol k) false s)

/-- One block step of the scan sequencer (R145, R146); at `IDLE` it has none. -/
def scanStep (s : State) : State :=
  match s.sstate with
  | .idle => s
  | .cell k => scanCell k s
  | .dwell k => scanDwell k s

/-- LIGHT: drive one row line and one column line; no faults for any `ROW`, `COL` in 0 to 7 (R142, R143, R223). -/
def execLight (on : Bool) (row col : BitVec 3) (s : State) : Host.Outcome State Fault Refusal :=
  .next (lightLines on row col s)

/-- SCAN: paint the world once. Accepting it starts the sequencer, which the following steps run (R144). -/
def execScan (s : State) : Host.Outcome State Fault Refusal := .next (startScan s)

end Sys2Proof.Machine
end

