-- ==== Sys2Proof/Machine/Dispatch.lean ====
section
/-! DEFINITION. What an accepted command does: one arm per constructor of Instr. -/

namespace Sys2Proof.Machine

/-- Perform an accepted command by its rule (R75, R78). -/
def exec (i : Instr) (s : State) : Host.Outcome State Fault Refusal :=
  match i with
  | .nop => Sys2Proof.Machine.execNop s
  | .step => Sys2Proof.Machine.execStep s
  | .rand => Sys2Proof.Machine.execRand s
  | .load data => Sys2Proof.Machine.execLoad data s
  | .cpl => Sys2Proof.Machine.execCpl s
  | .light on row col => Sys2Proof.Machine.execLight on row col s
  | .scan => Sys2Proof.Machine.execScan s

end Sys2Proof.Machine
end

