-- ==== Sys2Proof/Machine/Accept.lean ====
section
/-! DEFINITION. What the block does with the command it accepts (R75, R84). -/

namespace Sys2Proof.Machine

/-- The presented word is taken from the port, decoded and performed; an ILLEGAL word raises ILL (R75, R84, R221). -/
def acceptStep (s : State) : Host.Outcome State Fault Refusal :=
  match decode s.cmd with
  | .command i => exec i (takeCommand s)
  | .illegal _ => .next (raiseIll s.cmd (takeCommand s))

end Sys2Proof.Machine
end

