-- ==== Sys2Proof/Machine/Frame.lean ====
section
/-! DEFINITION. The frame controller, the host that issues the block's commands (42_frame_controller.md): its updates,
its single host actions (`hostStep`), and one whole frame as R179 writes it (`frame`). -/

namespace Sys2Proof.Machine

/-! ### Serial rendering -/

/-- `X` for a live cell and `.` for a dead one (R181, G1). -/
def cellByte (alive : Bool) : Byte := if alive then 0x58#8 else 0x2E#8

/-- One row of the rendering: five cells from column 0, then LF CR (R181). -/
def renderRow (w : World) (r : Fin 5) : List Byte :=
  (List.finRange 5).map (fun c => cellByte (cellAt w r c)) ++ [0x0A#8, 0x0D#8]

/-- `render_rows()`: the 35 bytes of the five rows (R181). -/
def renderRows (w : World) : List Byte := (List.finRange 5).flatMap (renderRow w)

/-- The two bytes of one clear, ESC c (R180). -/
def clearBytes : List Byte := [0x1B#8, 0x63#8]

/-- `clear_terminal()` (R180). -/
def clearTerminal (s : State) : State := emit clearBytes s

/-! ### The host's updates of its own registers -/

/-- F1: `tick_count <- tick_count + 1` (R172). -/
def tick (s : State) : State := { s with tickCount := s.tickCount + 1 }

/-- F2: the world is compared with `P`: equal counts, unequal copies and starts the count again (R173). -/
def compareSnapshot (s : State) : State :=
  if s.world = s.prev then { s with sameBoardCount := s.sameBoardCount + 1 }
  else { s with prev := s.world, sameBoardCount := 0 }

/-- F2 after its STEP: clear the terminal, set `update_serial`, compare (R173). -/
def afterGeneration (s : State) : State :=
  compareSnapshot { clearTerminal s with updateSerial := true }

/-- F2: `same_board_count > 50` (R173). -/
def stagnant (s : State) : Bool := Config.stagLimit < s.sameBoardCount

/-- F2: `tick_count <- 0` (R173). -/
def resetTick (s : State) : State := { s with tickCount := 0 }

/-- F2: `tick_count > 10` (R173). -/
def generationDue (s : State) : Bool := Config.genTicks < s.tickCount

/-- F3 after its RAND: set `a_ignore`, set `update_serial`, clear the terminal (R174). -/
def afterPressA (s : State) : State := clearTerminal { s with aIgnore := true, updateSerial := true }

/-- F4: with `a_ignore` set, a second sample of A; released clears `a_ignore` (R175, D18). -/
def releaseA (s : State) : State :=
  if s.aIgnore then
    let d := pressedA s
    if d.1 then d.2 else { d.2 with aIgnore := false }
  else s

/-- F5's sample of B, taken only when `a_ignore` and `b_ignore` are clear; false where none is taken (R176, D18). -/
def sampleB (s : State) : Bool × State :=
  if s.aIgnore = false ∧ s.bIgnore = false then pressedB s else (false, s)

/-- F5 after its CPL: set `b_ignore`, set `update_serial`, clear the terminal (R176). -/
def afterPressB (s : State) : State := clearTerminal { s with bIgnore := true, updateSerial := true }

/-- F6: the cooldown (R177). -/
def cooldown (s : State) : State :=
  if s.bIgnore = true ∧ s.bIgnoreCount < Config.bCooldown then { s with bIgnoreCount := s.bIgnoreCount + 1 }
  else { s with bIgnoreCount := 0, bIgnore := false }

/-- F7 before its SCAN: with `update_serial` set the 35 row bytes are to be written during the sweep (R178). -/
def fillOutbox (s : State) : State := { s with outbox := if s.updateSerial then renderRows s.world else [] }

/-- F7 during its SCAN: some of the row bytes left go out before the next sequencer step, how many is open
(`SERIAL_INTERLEAVE`, R65, R178, D20; log entry 7). -/
def interleave (s : State) : State :=
  match s.outbox with
  | [] => s
  | _ :: _ =>
    let d := drawBurst s
    emit (d.2.outbox.take d.1) { d.2 with outbox := d.2.outbox.drop d.1 }

/-- F7 after its SCAN: the row bytes left go out, and `update_serial <- 0` (R178). -/
def finishPaint (s : State) : State :=
  { emit s.outbox { s with outbox := [] } with updateSerial := false }

/-- A step of the busy machine: some row bytes may go out, then the sequencer takes its step (R145, R146, R178). -/
def scanTurn (s : State) : State := scanStep (interleave s)

/-! ### The host, one action a step -/

/-- One action of the frame controller at the point where it stands: an issue, a sample, a delay, an emission or an update
of its registers (R170), in the order of R172 to R178 and R253. It is the driver's turn only when the command issued
before has completed (R183). -/
def hostStep (s : State) : State :=
  match s.point with
  | .boot => goTo .bootDone (present (encode .rand) s)
  | .bootDone => goTo .f1 s
  | .f1 => goTo .f2 (tick s)
  | .f2 => if generationDue s then goTo .f2Stepped (present (encode .step) s) else goTo .f3 s
  | .f2Stepped =>
    let s := afterGeneration s
    goTo .f2Done (if stagnant s then present (encode .rand) s else s)
  | .f2Done => goTo .f3 (resetTick s)
  | .f3 =>
    let d := pressedA s
    goTo (if d.1 then .f3Delay else .f4) d.2
  | .f3Delay => goTo .f3Issue s
  | .f3Issue => goTo .f3Done (present (encode .rand) s)
  | .f3Done => goTo .f4 (afterPressA s)
  | .f4 => goTo .f5 (releaseA s)
  | .f5 =>
    let d := sampleB s
    goTo (if d.1 then .f5Delay else .f6) d.2
  | .f5Delay => goTo .f5Issue s
  | .f5Issue => goTo .f5Done (present (encode .cpl) s)
  | .f5Done => goTo .f6 (afterPressB s)
  | .f6 => goTo .f7 (cooldown s)
  | .f7 => goTo .f7Done (present (encode .scan) (fillOutbox s))
  | .f7Done => goTo .f1 (finishPaint s)

/-- The driver's turn: the frame controller acts, or the outside program presents its next word; a program with no word
left leaves the port idle (log entry 3). -/
def driverStep (s : State) : State :=
  match s.driver with
  | .frameController => hostStep s
  | .program (w :: rest) => present w { s with driver := .program rest }
  | .program [] => s

/-! ### One whole frame (R179) -/

/-- The word of a command presented and accepted: what is left of the handshake on the ports (R75, R183). -/
def handshake (i : Instr) (s : State) : State := takeCommand (present (encode i) s)

/-- The sequencer run to `IDLE`, at most `fuel` steps (R147). -/
def runScan : Nat → State → State
  | 0, s => s
  | fuel + 1, s => if s.busy then runScan fuel (scanTurn s) else s

/-- F2 (R173). -/
def frameF2 (s : State) : State :=
  if generationDue s then
    let s := afterGeneration (stepWorld (handshake .step s))
    resetTick (if stagnant s then randWorld (handshake .rand s) else s)
  else s

/-- F3 (R174). -/
def frameF3 (s : State) : State :=
  let d := pressedA s
  if d.1 then afterPressA (randWorld (handshake .rand d.2)) else d.2

/-- F5 (R176). -/
def frameF5 (s : State) : State :=
  let d := sampleB s
  if d.1 then afterPressB (complementWorld (handshake .cpl d.2)) else d.2

/-- F7 (R178). A SCAN has at most 25 cell steps and 25 dwell steps after it is accepted (R147). -/
def frameF7 (s : State) : State := finishPaint (runScan 50 (startScan (handshake .scan (fillOutbox s))))

/-- One frame, whole (R179): F1 to F7 in order, each issued command run to its completion. -/
def frame (s : State) : State := frameF7 (cooldown (frameF5 (releaseA (frameF3 (frameF2 (tick s))))))

end Sys2Proof.Machine
end

