-- ==== Sys2Proof/Machine/Step.lean ====
section
/-! DEFINITION. One step of the machine: reset, the sequencer, an accepted command, or the driver. -/

namespace Sys2Proof.Machine

/-- One step (R6, R61): whose turn it is, and what it does. -/
def step (s : State) : Host.Outcome State Fault Refusal :=
  match s.turn with
  | .reset => .next (applyReset s)
  | .sequencer => .next (scanTurn s)
  | .accept => acceptStep s
  | .driver => .next (driverStep s)

/-- `s` with the word `w` presented to a block that is ready, so that the next step accepts it (R43, R75; log entry 4). -/
def State.withFetchWord (s : State) (nbits w : Nat) : State := presentReady (tableWord nbits w) s

end Sys2Proof.Machine
end

