-- ==== Sys2Proof/Machine/Assembler.lean ====
section
/-! DEFINITION. The assembler: the text of one line (R83), the pseudo-instructions (R85) and the command a line stands
for. -/

namespace Sys2Proof.Machine

/-! ### Pseudo-instructions (R85) -/

/-- The `DATA` of a grid: bit `5r + c` is 1 iff character `c` of row `r` is `X` (R85). -/
def gridData (grid : List (List Char)) : Nat :=
  (grid.flatten.foldr (fun ch acc => 2 * acc + (if ch == 'X' then 1 else 0)) 0)

/-- The expansion of a pseudo-instruction (R85); a command stands for itself. -/
def expand : Asm → Asm
  | .lightOn row col => .light row col true
  | .lightOff row col => .light row col false
  | .clear => .load 0x0000000
  | .fill => .load 0x1FFFFFF
  | .loadg grid => .load (gridData grid)
  | .paint => .scan
  | .nop => .nop
  | .step => .step
  | .rand => .rand
  | .load data => .load data
  | .cpl => .cpl
  | .light row col on => .light row col on
  | .scan => .scan

/-- The command of an expanded line whose operands fit their fields. -/
def coreInstr : Asm → Option Instr
  | .nop => some .nop
  | .step => some .step
  | .rand => some .rand
  | .load data => some (.load (BitVec.ofNat 25 data))
  | .cpl => some .cpl
  | .light row col on => some (.light on (BitVec.ofNat 3 row) (BitVec.ofNat 3 col))
  | .scan => some .scan
  | .lightOn _ _ => none
  | .lightOff _ _ => none
  | .clear => none
  | .fill => none
  | .loadg _ => none
  | .paint => none

/-- The command of a line, none for an assembler error (R83, R85). -/
def assemble (a : Asm) : Option Instr := if asmWellFormed a then coreInstr (expand a) else none

/-! ### Text of one line (R83) -/

/-- The line without its comment: `;` starts a comment (R83). -/
def stripComment (line : List Char) : List Char := line.takeWhile fun ch => ch != ';'

/-- White space between the parts of a line. PRESUMED (log entry 10, safe): space, tab, CR and LF. -/
def isBlank (ch : Char) : Bool := ch == ' ' || ch == '\t' || ch == '\r' || ch == '\n'

/-- A text without the blanks at its two ends. -/
def trim (text : List Char) : List Char := ((text.dropWhile isBlank).reverse.dropWhile isBlank).reverse

/-- The parts of a text between commas (R83). -/
def splitCommas : List Char → List (List Char)
  | [] => [[]]
  | ch :: rest =>
    if ch == ',' then [] :: splitCommas rest
    else match splitCommas rest with
      | [] => [[ch]]
      | part :: parts => (ch :: part) :: parts

/-- The value of a digit character below `base`. -/
def digitValue (base : Nat) (ch : Char) : Option Nat :=
  let n := ch.toNat
  let v := if '0'.toNat ≤ n ∧ n ≤ '9'.toNat then some (n - '0'.toNat)
    else if 'a'.toNat ≤ n ∧ n ≤ 'f'.toNat then some (n - 'a'.toNat + 10)
    else if 'A'.toNat ≤ n ∧ n ≤ 'F'.toNat then some (n - 'A'.toNat + 10)
    else none
  v.filter fun d => d < base

/-- The number that digits spell after `acc`, most significant first. -/
def readDigits (base : Nat) : Nat → List Char → Option Nat
  | acc, [] => some acc
  | acc, ch :: rest => match digitValue base ch with
    | some d => readDigits base (base * acc + d) rest
    | none => none

/-- A number, decimal or `0x` hex (R83). PRESUMED (log entry 10, safe): digits alone, so a `_` between digits, as R83
itself writes `0x1FF_FFFF`, is an assembler error; leading zeros are allowed; the prefix is a small `0x`. -/
def readNumber (text : List Char) : Option Nat :=
  match text with
  | [] => none
  | ['0', 'x'] => none
  | '0' :: 'x' :: digits => readDigits 16 0 digits
  | digits => readDigits 10 0 digits

/-- `ON` or `OFF` (R83). PRESUMED (log entry 10, safe): as written, since only mnemonics are said to be case-insensitive. -/
def readOnOff (text : List Char) : Option Bool :=
  if text = ['O', 'N'] then some true else if text = ['O', 'F', 'F'] then some false else none

/-- A quoted grid row of `LOADG` (R85). -/
def readQuoted (text : List Char) : Option (List Char) :=
  match text with
  | '\x22' :: rest => match rest.reverse with
    | '\x22' :: inner => some inner.reverse
    | _ => none
  | _ => none

/-- A command or pseudo-instruction from its mnemonic in capitals and its operands (R83, R85). -/
def readCommand (mnemonic : List Char) (operands : List (List Char)) : Option Asm :=
  let is (name : String) : Bool := mnemonic == name.toList
  match operands with
  | [] =>
    if is "NOP" then some .nop
    else if is "STEP" then some .step
    else if is "RAND" then some .rand
    else if is "CPL" then some .cpl
    else if is "SCAN" then some .scan
    else if is "CLEAR" then some .clear
    else if is "FILL" then some .fill
    else if is "PAINT" then some .paint
    else none
  | [data] => if is "LOAD" then (readNumber data).map .load else none
  | [row, col] => match readNumber row, readNumber col with
    | some r, some c =>
      if is "LIGHTON" then some (.lightOn r c) else if is "LIGHTOFF" then some (.lightOff r c) else none
    | _, _ => none
  | [row, col, onOff] => match readNumber row, readNumber col, readOnOff onOff with
    | some r, some c, some on => if is "LIGHT" then some (.light r c on) else none
    | _, _, _ => none
  | rows => if is "LOADG" then (rows.mapM readQuoted).map .loadg else none

/-- What one line of text holds. -/
inductive Line where
  /-- Nothing but blanks and a comment: allowed, no command (PRESUMED, log entry 10). -/
  | empty
  /-- One command. -/
  | command (i : Instr)
  /-- An assembler error (R83). -/
  | error
deriving DecidableEq, Repr

/-- One line of assembler text: at most one command, mnemonics case-insensitive, operands separated by commas (R83).
PRESUMED (log entry 10, safe): a line that is blank or holds a comment alone is allowed and stands for no command. -/
def readLine (line : List Char) : Line :=
  let text := trim (stripComment line)
  let mnemonic := text.takeWhile fun ch => !isBlank ch
  let rest := trim (text.dropWhile fun ch => !isBlank ch)
  let operands := if rest = [] then [] else (splitCommas rest).map trim
  if text = [] then .empty
  else match (readCommand (mnemonic.map Char.toUpper) operands).bind assemble with
    | some i => .command i
    | none => .error

end Sys2Proof.Machine
end

