-- ==== Sys2Proof/Safety.lean ====
section
/-! DEFINITION. The terms claims are made in: independent descriptions of the torus, the paint sweep and its trace, and
the invariants of the machine. -/

namespace Sys2Proof.Machine

/-! ### Illegal words (R79, R80) -/

/-- The opcode is reserved, `0x7` to `0xF` (R79). -/
abbrev reservedOpcodeWord (w : Cmd) : Prop := 7 ≤ (w >>> 28).toNat

/-- The opcode is that of a row of the mask and match table and a bit the row fixes differs from it: "a defined opcode and
a 1 in any bit its format marks must be 0" (R80, R82). -/
abbrev reservedBitWord (w : Cmd) : Prop :=
  ∃ row ∈ opcodeTable, w >>> 28 = row.matchBits >>> 28 ∧ w &&& row.mask ≠ row.matchBits

/-- What `raise ILL(cmd)` leaves of the state that accepted the word (R221): ILL is set, the first word is kept, and nothing
else changes; that `cmd_valid` falls and `cmd` stays is the model's choice (log entry 12). -/
abbrev illegalTaken (s : State) : State :=
  { s with cmdValid := false, ill := true, illCmd := if s.ill = true then s.illCmd else s.cmd }

/-- The step answers a next state with ILL raised on the presented word and no other effect, whatever becomes of the input
ports `cmd` and `cmd_valid`, of which R221 says nothing. -/
abbrev stepRaisesIll (s : State) : Prop :=
  ∃ t, step s = .next t ∧ t.status.getLsbD 2 = true ∧
    t = { s with cmd := t.cmd, cmdValid := t.cmdValid, ill := true, illCmd := if s.ill = true then s.illCmd else s.cmd }

/-! ### The serial stream -/

/-- From `s` to `t` exactly `bytes` are written to the serial line, in order: stream and serial draws are those of one
emission (R182), so with no byte dropped the stream gains all of `bytes` and no draw is taken. -/
abbrev sends (bytes : List Byte) (s t : State) : Prop :=
  t.serial = (emit bytes s).serial ∧ t.env.serialOk = (emit bytes s).env.serialOk ∧
  (s.params.serialMayDrop = false → t.serial = s.serial ++ bytes ∧ t.env.serialOk = s.env.serialOk)

/-! ### The torus, described without indices or tables -/

/-- `x` and `y` agree or are next to each other on a ring of five. -/
abbrev ringClose (x y : Fin 5) : Prop := y = x ∨ y = x + 1 ∨ x = y + 1

/-- `q` is one of the eight toroidal neighbours of `p` (R52): in the 3×3 ring round `p` and not `p` itself. -/
abbrev torusNeighbour (p q : Fin 5 × Fin 5) : Prop := q ≠ p ∧ ringClose p.1 q.1 ∧ ringClose p.2 q.2

/-- The number of live toroidal neighbours of cell `p` (R52, R100). -/
def liveNeighbours (w : World) (p : Fin 5 × Fin 5) : Nat :=
  (Finset.univ.filter fun q : Fin 5 × Fin 5 => torusNeighbour p q ∧ cellAt w q.1 q.2 = true).card

/-- Conway's next value of cell `p` of a grid (R103, R105). -/
def conwayNext (w : World) (p : Fin 5 × Fin 5) : Bool :=
  liveNeighbours w p == 3 || (cellAt w p.1 p.2 && liveNeighbours w p == 2)

/-- The world whose cell `(r, c)` is `f r c`. -/
def worldFrom (f : Fin 5 → Fin 5 → Bool) : World :=
  ofBits (fun k => if h : k < 25 then f (cellRow ⟨k, h⟩) (cellCol ⟨k, h⟩) else false) 25

/-- A world with rows and columns exchanged (D3). -/
def transposeWorld (w : World) : World := worldFrom fun r c => cellAt w c r

/-- A world with its rows in the opposite order (D3). -/
def mirrorRows (w : World) : World := worldFrom fun r c => cellAt w r.rev c

/-- A world with its columns in the opposite order (D3). -/
def mirrorCols (w : World) : World := worldFrom fun r c => cellAt w r c.rev

/-! ### The paint sweep -/

/-- The LIGHT commands a SCAN of a world stands for, in order (R148): on and off for a live cell, off for a dead one. -/
def lightSequence (w : World) : List (Bool × Fin 25) :=
  (List.finRange 25).flatMap fun k => if w.getLsbD k.val then [(true, k), (false, k)] else [(false, k)]

/-- The LIGHT commands of a list, performed in order (R142). -/
def performLights (lights : List (Bool × Fin 25)) (s : State) : State :=
  lights.foldl (fun s l => driveCell (cellRow l.2) (cellCol l.2) l.1 s) s

/-- The lit cells of a state, in row-major order (R141). -/
def litCells (s : State) : List (Fin 25) := (List.finRange 25).filter fun k => s.lit (cellRow k) (cellCol k)

/-- `n` steps of the scan sequencer alone. -/
def scanSteps : Nat → State → State
  | 0, s => s
  | n + 1, s => scanSteps n (scanStep s)

/-- `n` frames of the host (R170, R179). -/
def frames : Nat → State → State
  | 0, s => s
  | n + 1, s => frames n (frame s)

/-! ### Invariants -/

/-- The lines as R149 and R150 have them: only the LED of a dwelling live cell is on, at every other moment the lines are
idle. -/
def linesFollowScan (s : State) : Bool :=
  match s.sstate with
  | .idle => s.linesIdle
  | .cell _ => s.linesIdle
  | .dwell k => s.world.getLsbD k.val && s.row == BitVec.twoPow 5 (cellRow k).val &&
      s.col == ~~~(BitVec.twoPow 5 (cellCol k).val)

/-- The command the host has issued when it stands at a point, if any (R183). -/
def issuedAt : FramePoint → Option Instr
  | .boot => none
  | .bootDone => some .rand
  | .f1 => none
  | .f2 => none
  | .f2Stepped => some .step
  | .f2Done => some .rand
  | .f3 => none
  | .f3Delay => none
  | .f3Issue => none
  | .f3Done => some .rand
  | .f4 => none
  | .f5 => none
  | .f5Delay => none
  | .f5Issue => none
  | .f5Done => some .cpl
  | .f6 => none
  | .f7 => none
  | .f7Done => some .scan

/-- What holds in every run of the frame sequence (R183, R189, R222): the frame controller drives, ILL is clear, a
presented command is the one the host issues at its point, the sequencer is busy only inside F7, the lines follow the
scan, and the row bytes left to write end the rendering of the world shown. Line writes do not fail (R152, the default). -/
abbrev FrameRun (s : State) : Prop :=
  s.driver = .frameController ∧ s.params.lineWriteMayFail = false ∧ s.ill = false ∧ s.illCmd = 0 ∧
  (s.cmdValid = true → (issuedAt s.point).map encode = some s.cmd) ∧
  (s.busy = true → s.point = .f7Done ∧ s.cmdValid = false) ∧
  linesFollowScan s = true ∧
  (s.outbox ≠ [] → s.point = .f7Done ∧ s.outbox <:+ renderRows s.world)

/-- The ranges of the host's counters (R34, R38) and what ties them to its latches (R177). -/
abbrev HostRanges (s : State) : Prop :=
  s.tickCount ≤ 11 ∧ (s.phase ≠ .f2 → s.tickCount ≤ 10) ∧
  s.bIgnoreCount ≤ 100 ∧ (s.bIgnore = false → s.bIgnoreCount = 0) ∧
  (s.bIgnore = true → s.phase ≠ .f6 → 1 ≤ s.bIgnoreCount)

/-- The host stands between two frames, its last command completed and nothing left to write (R170, R183). -/
abbrev FrameStart (s : State) : Prop :=
  s.point = .f1 ∧ s.driver = .frameController ∧ s.rst = false ∧ s.cmdValid = false ∧ s.sstate = .idle ∧ s.outbox = []

end Sys2Proof.Machine
end

