-- ==== Sys2Proof/Certificates/Slice0/Obligations.lean ====
section
/-! DEFINITION. The statements for the provers, in the order of the spec's files. -/

open Sys2Proof Sys2Proof.Machine

/-! ### Encoding (30_encoding.md) -/

/-- R70 to R74, R84: the encoder and the decoder are inverse to each other, for every command and every legal word. -/
def Obligations.EncodeAndDecodeAreInverse : Prop :=
  (∀ i : Instr, decode (encode i) = .command i) ∧
  ∀ (w : Cmd) (i : Instr), decode w = .command i → encode i = w

/-- R82: a word selects a command iff `(cmd & mask) == match`, with the free fields of the row; every other word is
illegal; the rows do not overlap. -/
def Obligations.DecodeFollowsMaskMatchTable : Prop :=
  ∀ w : Cmd,
    (∀ i, decode w = .command i → (opcodeRowOf i).selects w = true) ∧
    (∀ i, (opcodeRowOf i).selects w = true → ∃ j, decode w = .command j ∧ opcodeRowOf j = opcodeRowOf i) ∧
    (∀ data, decode w = .command (.load data) → data = w.extractLsb' 0 25) ∧
    (∀ on row col, decode w = .command (.light on row col) →
      on = w.getLsbD 27 ∧ row = w.extractLsb' 4 3 ∧ col = w.extractLsb' 0 3) ∧
    ((∀ row ∈ opcodeTable, row.selects w = false) → ∃ why, decode w = .illegal why) ∧
    (opcodeTable.filter fun row => row.selects w).length ≤ 1

/-- R79, R80, R221: a reserved opcode, or a reserved bit of a defined opcode, is ILLEGAL by that name; accepted, it raises
ILL, keeps the first illegal word, sets `STATUS[2]`, and has no other effect. What the input ports carry afterwards is left
out here, since no rule says it; StepRunsTheDecodedCommand states the model's choice (log entry 12). -/
def Obligations.ReservedWordRaisesIll : Prop :=
  (∀ w : Cmd, decode w = .illegal .reservedOpcode ↔ reservedOpcodeWord w) ∧
  (∀ w : Cmd, decode w = .illegal .reservedBit ↔ reservedBitWord w) ∧
  ∀ s : State, s.rst = false → s.busy = false → s.cmdValid = true →
    (reservedOpcodeWord s.cmd ∨ reservedBitWord s.cmd) → stepRaisesIll s

/-- R86, and the formats R72 to R74: words written out from the spec's encoding decode to the commands they stand for. -/
def Obligations.SpecWordsDecode : Prop :=
  decode 0x10000000#32 = .command .step ∧ decode 0x40000000#32 = .command .cpl ∧
  decode 0x60000000#32 = .command .scan ∧ decode 0x58000000#32 = .command (.light true 0 0) ∧
  decode 0x50000044#32 = .command (.light false 4 4) ∧ decode 0x58000050#32 = .command (.light true 5 0) ∧
  decode 0x31FFFFFF#32 = .command (.load 0x1FFFFFF#25) ∧ assemble .fill = some (.load 0x1FFFFFF#25) ∧
  decode 0x30003800#32 = .command (.load 0x0003800#25) ∧
  assemble (.loadg [".....".toList, ".....".toList, ".XXX.".toList, ".....".toList, ".....".toList]) =
    some (.load 0x0003800#25) ∧
  decode 0x00000000#32 = .command .nop ∧ decode 0x20000000#32 = .command .rand

/-- R83: an operand out of its range is an assembler error; in its range the line is the command of its operands. -/
def Obligations.AssemblerChecksRanges : Prop :=
  (∀ data, assemble (.load data) = if data ≤ 0x1FFFFFF then some (.load (BitVec.ofNat 25 data)) else none) ∧
  (∀ row col on, assemble (.light row col on) =
    if row ≤ 7 ∧ col ≤ 7 then some (.light on (BitVec.ofNat 3 row) (BitVec.ofNat 3 col)) else none)

/-- R85: every pseudo-instruction stands for its expansion; bit `5r+c` of `LOADG`'s data is 1 iff character `c` of row `r`
is `X`. -/
def Obligations.PseudoInstructionsExpand : Prop :=
  (∀ row col, assemble (.lightOn row col) = assemble (.light row col true)) ∧
  (∀ row col, assemble (.lightOff row col) = assemble (.light row col false)) ∧
  assemble .clear = some (.load 0#25) ∧ assemble .fill = some (.load 0x1FFFFFF#25) ∧ assemble .paint = some .scan ∧
  ∀ grid, gridOk grid = true → ∃ data, assemble (.loadg grid) = some (.load data) ∧
    ∀ r c : Fin 5, data.getLsbD (5 * r.val + c.val) = ((grid.getD r.val []).getD c.val '.' == 'X')

/-! ### The life unit (20_memory.md, 40_life_transition.md) -/

/-- R52, R53: the eight toroidal neighbours of a cell are distinct, none is the cell, and they are the 3×3 ring round it;
the three listed neighbour sets. -/
def Obligations.NeighboursAreTheRing : Prop :=
  (∀ k : Fin 25, (neighbours k).Nodup ∧ (neighbours k).length = 8 ∧ k.val ∉ neighbours k) ∧
  (∀ k j : Fin 25, j.val ∈ neighbours k ↔ torusNeighbour (cellRow k, cellCol k) (cellRow j, cellCol j)) ∧
  neighbours 0 = [24, 20, 21, 4, 1, 9, 5, 6] ∧ neighbours 12 = [6, 7, 8, 11, 13, 16, 17, 18] ∧
  neighbours 24 = [18, 19, 15, 23, 20, 3, 4, 0]

/-- R100, R101: the neighbour sum is the number of live toroidal neighbours, lies in `[0, 8]`, and is 8 exactly when all
eight neighbours are alive. -/
def Obligations.NeighbourSumCountsLiveNeighbours : Prop :=
  ∀ (w : World) (r c : Fin 5),
    nsum w (cellIndex r c) = liveNeighbours w (r, c) ∧ nsum w (cellIndex r c) ≤ 8 ∧
    (nsum w (cellIndex r c) = 8 ↔ ∀ q, torusNeighbour (r, c) q → cellAt w q.1 q.2 = true)

/-- R102, R103: the table's entries, and the next-cell function equivalent to it. -/
def Obligations.LutIsNextCellFunction : Prop :=
  (∀ n : Fin 9, lut false n.val = (n.val == 3)) ∧
  (∀ n : Fin 9, lut true n.val = (n.val == 2 || n.val == 3)) ∧
  ∀ (a : Bool) (n : Fin 9), lut a n.val = (n.val == 3 || (a && n.val == 2))

/-- R104: STEP completes from every state, writes every cell from the table at its snapshot value and live neighbours,
reads nothing but `W`, and changes nothing else; QUIESCENT follows the new world and BUSY stays; the corner cases, the
example, and the words that are no STEP. -/
def Obligations.StepAdvancesOneGeneration : Prop :=
  encode .step = 0x10000000#32 ∧
  (∀ w : Cmd, w.extractLsb' 28 4 = 1#4 → w ≠ 0x10000000#32 → decode w = .illegal .reservedBit) ∧
  ∀ s : State, ∃ w : World,
    exec .step s = .next { s with world := w } ∧
    (∀ r c : Fin 5, cellAt w r c = lut (cellAt s.world r c) (liveNeighbours s.world (r, c))) ∧
    (∀ s' : State, s'.world = s.world → exec .step s' = .next { s' with world := w }) ∧
    (({ s with world := w } : State).status.getLsbD 0 = true ↔ w = 0) ∧
    ({ s with world := w } : State).busy = s.busy ∧
    (s.world = 0 → w = 0) ∧ (s.world = 0x1FFFFFF#25 → w = 0) ∧ (s.world = 0x0003800#25 → w = 0x0021080#25)

/-- R105: the four STEP laws. -/
def Obligations.StepLawsHold : Prop :=
  ∀ s : State, ∃ t, exec .step s = .next t ∧
    (s.quiescent = true → t.quiescent = true) ∧
    (∀ s' : State, s'.world = s.world → ∃ t', exec .step s' = .next t' ∧ t'.world = t.world) ∧
    (∀ p : Fin 5 × Fin 5, cellAt s.world p.1 p.2 = true →
      (liveNeighbours s.world p < 2 ∨ 3 < liveNeighbours s.world p) → cellAt t.world p.1 p.2 = false) ∧
    ∀ p : Fin 5 × Fin 5, cellAt t.world p.1 p.2 = conwayNext s.world p

/-- D3: the rule of R104 commutes with transposing and with mirroring the torus. -/
def Obligations.GenerationCommutesWithSymmetries : Prop :=
  ∀ w : World,
    nextWorld (transposeWorld w) = transposeWorld (nextWorld w) ∧
    nextWorld (mirrorRows w) = mirrorRows (nextWorld w) ∧
    nextWorld (mirrorCols w) = mirrorCols (nextWorld w)

/-- R106: RAND completes from every state; cell `k` is bit 0 of the `k`-th answer of the entropy source, the answers are
taken in that order and no more than 25, nothing else changes, and the old world does not matter. Where the state fixes
no answer the answer is a free value, and the form in which answers are held is the model's choice (log entry 1). -/
def Obligations.RandWritesTwentyFiveDraws : Prop :=
  ∀ s : State, ∃ w : World,
    exec .rand s = .next { s with
      world := w
      env := { s.env with bytes := ⟨s.env.bytes.queued.drop 25, s.env.bytes.taken + 25⟩ } } ∧
    ∀ k : Fin 25, w.getLsbD k.val =
      ((s.env.bytes.queued[k.val]?).getD (Config.freeByte (s.env.bytes.taken + k.val))).getLsbD 0

/-- R106: every 25-bit value is a possible result of RAND, from every state, under some answers of the entropy source. The
form in which answers are held is the model's choice (log entry 1). -/
def Obligations.RandReachesEveryWorld : Prop :=
  ∀ (s : State) (w : World), ∃ bytes : List Byte, bytes.length = 25 ∧
    ∃ t, exec .rand { s with env := { s.env with bytes := ⟨bytes, s.env.bytes.taken⟩ } } = .next t ∧ t.world = w

/-- R107: LOAD completes from every state and writes the world from `cmd[24:0]`, nothing else; QUIESCENT follows; a word
with a bit of 27:25 set raises ILL and writes no world; the corner cases and the example. -/
def Obligations.LoadWritesTheWorld : Prop :=
  (∀ data s, exec (.load data) s = .next { s with world := data }) ∧
  (∀ (data : World) (s : State), ({ s with world := data } : State).status.getLsbD 0 = true ↔ data = 0) ∧
  (∀ w : Cmd, w.extractLsb' 28 4 = 3#4 → w.extractLsb' 25 3 = 0#3 → decode w = .command (.load (w.extractLsb' 0 25))) ∧
  (∀ s : State, s.rst = false → s.busy = false → s.cmdValid = true → s.cmd.extractLsb' 28 4 = 3#4 →
    s.cmd.extractLsb' 25 3 ≠ 0#3 → stepRaisesIll s) ∧
  (∀ s : State, exec (.load s.world) s = .next s) ∧
  decode 0x300018C0#32 = .command (.load 0x00018C0#25)

/-- R108: CPL completes from every state, flips every cell and changes nothing else; QUIESCENT follows; it is an
involution and never leaves the world unchanged; full and empty worlds; the example. -/
def Obligations.ComplementFlipsEveryCell : Prop :=
  encode .cpl = 0x40000000#32 ∧
  ∀ s : State, ∃ w : World,
    exec .cpl s = .next { s with world := w } ∧
    (∀ r c : Fin 5, cellAt w r c = !cellAt s.world r c) ∧
    w = s.world ^^^ 0x1FFFFFF#25 ∧ w ≠ s.world ∧
    exec .cpl { s with world := w } = .next s ∧
    (({ s with world := w } : State).status.getLsbD 0 = true ↔ w = 0) ∧
    (s.world = 0x1FFFFFF#25 → ({ s with world := w } : State).quiescent = true) ∧
    (s.world = 0 → ({ s with world := w } : State).quiescent = false) ∧
    (s.world = 0x0003800#25 → w = 0x1FFC7FF#25)

/-- R109: NOP completes from every state and changes nothing; a word of opcode 0 with any of bits 27:0 set raises ILL. -/
def Obligations.NopChangesNothing : Prop :=
  (∀ s : State, exec .nop s = .next s) ∧ encode .nop = 0#32 ∧ decode 0#32 = .command .nop ∧
  ∀ s : State, s.rst = false → s.busy = false → s.cmdValid = true → s.cmd.extractLsb' 28 4 = 0#4 →
    s.cmd.extractLsb' 0 28 ≠ 0#28 → stepRaisesIll s

/-! ### Status (10_state.md) -/

/-- R27, R110: QUIESCENT is true iff every cell is dead. -/
def Obligations.QuiescentIffEveryCellDead : Prop :=
  (∀ s : State, s.quiescent = true ↔ ∀ r c : Fin 5, cellAt s.world r c = false) ∧ State.reset.quiescent = true

/-- R28, R32: the STATUS word bit by bit, its reset value, and BUSY's. -/
def Obligations.StatusWordLayout : Prop :=
  (∀ s : State, (s.status.getLsbD 0 = true ↔ s.world = 0) ∧ (s.status.getLsbD 1 = true ↔ s.sstate ≠ .idle) ∧
    s.status.getLsbD 2 = s.ill ∧ ∀ i, 3 ≤ i → s.status.getLsbD i = false) ∧
  State.reset.status = 0x00000001#32 ∧ State.reset.busy = false

/-- R29: ILL is set only by an accepted illegal word and cleared only by reset; ILL_CMD is written only when ILL goes from
0 to 1, with that word; the reset values. -/
def Obligations.IllIsStickyAndKeepsFirstWord : Prop :=
  (∀ s t : State, step s = .next t →
    (s.rst = true → t.ill = false ∧ t.illCmd = 0) ∧
    (s.rst = false → s.ill = true → t.ill = true ∧ t.illCmd = s.illCmd) ∧
    (s.rst = false → s.ill = false → t.ill = true →
      s.cmdValid = true ∧ s.busy = false ∧ (∃ why, decode s.cmd = .illegal why) ∧ t.illCmd = s.cmd) ∧
    (s.rst = false → t.ill = false → t.illCmd = s.illCmd)) ∧
  State.reset.ill = false ∧ State.reset.illCmd = 0

/-- R22: in one step the world changes only by reset or by an accepted STEP, RAND, LOAD or CPL. -/
def Obligations.OnlyFourCommandsWriteTheWorld : Prop :=
  ∀ s t : State, step s = .next t → t.world ≠ s.world →
    s.rst = true ∨ (s.busy = false ∧ s.cmdValid = true ∧
      (decode s.cmd = .command .step ∨ decode s.cmd = .command .rand ∨
       (∃ data, decode s.cmd = .command (.load data)) ∨ decode s.cmd = .command .cpl))

/-- R24, R25: in one step a line changes only by reset, by a step of a SCAN in progress, or by an accepted LIGHT whose two
indices name lines. -/
def Obligations.OnlyLightAndScanDriveLines : Prop :=
  ∀ s t : State, step s = .next t → (t.row ≠ s.row ∨ t.col ≠ s.col) →
    s.rst = true ∨ s.busy = true ∨
    (s.cmdValid = true ∧ ∃ on row col, decode s.cmd = .command (.light on row col) ∧ row.toNat < 5 ∧ col.toNat < 5)

/-! ### LIGHT and SCAN (41_scan_sequencer.md) -/

/-- R140, R141: a cell is lit iff its row line is high and its column line is low, and the lit set is a product set. -/
def Obligations.LitSetIsAProduct : Prop :=
  ∀ s : State,
    (∀ r c : Fin 5, s.lit r c = true ↔ s.row.getLsbD r.val = true ∧ s.col.getLsbD c.val = false) ∧
    ∀ r r' c c' : Fin 5, s.lit r c = true → s.lit r' c' = true → s.lit r c' = true

/-- R142, R143, with line writes that take effect (R152, the default): LIGHT completes for every operand; in range it
drives its row line and its column line and no other; out of range it changes nothing; the words of the format, the corner
cases and the example. The out-of-range clause needs no premise on line writes. -/
def Obligations.LightDrivesOneLinePair : Prop :=
  (∀ w : Cmd, w.extractLsb' 28 4 = 5#4 → decode w =
    if w.extractLsb' 7 20 = 0#20 ∧ w.getLsbD 3 = false then
      .command (.light (w.getLsbD 27) (w.extractLsb' 4 3) (w.extractLsb' 0 3))
    else .illegal .reservedBit) ∧
  (∀ (on : Bool) (row col : BitVec 3) (s : State), (5 ≤ row.toNat ∨ 5 ≤ col.toNat) →
    exec (.light on row col) s = .next s) ∧
  (∀ (on : Bool) (row col : BitVec 3) (s : State), s.params.lineWriteMayFail = false → row.toNat < 5 → col.toNat < 5 →
    ∃ rows cols : Lines, exec (.light on row col) s = .next { s with row := rows, col := cols } ∧
      (∀ i : Fin 5, rows.getLsbD i.val = if i.val = row.toNat then on else s.row.getLsbD i.val) ∧
      (∀ i : Fin 5, cols.getLsbD i.val = if i.val = col.toNat then !on else s.col.getLsbD i.val) ∧
      exec (.light on row col) { s with row := rows, col := cols } = .next { s with row := rows, col := cols } ∧
      (on = true → ∀ r c : Fin 5, c.val = col.toNat → (r.val = row.toNat ∨ s.row.getLsbD r.val = true) →
        ({ s with row := rows, col := cols } : State).lit r c = true) ∧
      (on = false → ∀ r c : Fin 5, (r.val = row.toNat ∨ c.val = col.toNat) →
        ({ s with row := rows, col := cols } : State).lit r c = false)) ∧
  (∀ s : State, s.params.lineWriteMayFail = false → s.linesIdle = true →
    exec (.light true 2 3) s = .next { s with row := 0b00100#5, col := 0b10111#5 } ∧
    litCells { s with row := 0b00100#5, col := 0b10111#5 } = [cellIndex 2 3])

/-- R152, where line writes may fail: each of the two line writes of a LIGHT in range is kept or lost by its own draw, a
lost one leaves that line as it was, nothing else changes but the source of the draws, and no fault is recorded. The order
of the two draws and the form in which answers are held are the model's choices (log entries 1 and 9). -/
def Obligations.FailingLineWritesLoseOneLine : Prop :=
  ∀ (on : Bool) (row col : BitVec 3) (s : State), s.params.lineWriteMayFail = true → row.toNat < 5 → col.toNat < 5 →
    ∃ (rows cols : Lines) (okRow okCol : Bool),
      okRow = (s.env.lineOk.queued[0]?).getD (Config.freeLineOk s.env.lineOk.taken) ∧
      okCol = (s.env.lineOk.queued[1]?).getD (Config.freeLineOk (s.env.lineOk.taken + 1)) ∧
      exec (.light on row col) s = .next { s with
        row := rows, col := cols
        env := { s.env with lineOk := ⟨s.env.lineOk.queued.drop 2, s.env.lineOk.taken + 2⟩ } } ∧
      (∀ i : Fin 5, rows.getLsbD i.val = if okRow = true ∧ i.val = row.toNat then on else s.row.getLsbD i.val) ∧
      (∀ i : Fin 5, cols.getLsbD i.val = if okCol = true ∧ i.val = col.toNat then !on else s.col.getLsbD i.val)

/-- R144: SCAN completes from every state: the sequencer stands at CELL(0), BUSY is 1, and nothing else changes. -/
def Obligations.ScanStartsTheSequencer : Prop :=
  encode .scan = 0x60000000#32 ∧
  ∀ s : State, exec .scan s = .next { s with sstate := .cell 0 } ∧
    ({ s with sstate := .cell 0 } : State).status.getLsbD 1 = true

/-- R145, R146, R147, with line writes that take effect and no row byte waiting: the cell step and the dwell step as steps
of the machine, the lines they drive, and the state they lead to. The outbox is the model's own (log entry 7). -/
def Obligations.SequencerCellAndDwellSteps : Prop :=
  ∀ (s : State) (k : Fin 25), s.rst = false → s.params.lineWriteMayFail = false → s.outbox = [] →
    (s.sstate = .cell k ∨ s.sstate = .dwell k) →
    ∃ (on : Bool) (rows cols : Lines) (v : ScanState),
      step s = .next { s with row := rows, col := cols, sstate := v } ∧
      (on = true ↔ s.sstate = .cell k ∧ s.world.getLsbD k.val = true) ∧
      (∀ i : Fin 5, rows.getLsbD i.val = if i.val = k.val / 5 then on else s.row.getLsbD i.val) ∧
      (∀ i : Fin 5, cols.getLsbD i.val = if i.val = k.val % 5 then !on else s.col.getLsbD i.val) ∧
      (on = true → v = .dwell k) ∧
      (on = false → k.val = 24 → v = .idle) ∧
      (on = false → ∀ j : Fin 25, j.val = k.val + 1 → v = .cell j)

/-- R147: an accepted SCAN takes `1 + 25 + L` steps, BUSY exactly until the last, and the world it paints does not change
(R144); for every state, whatever lines fail and whatever serial bytes go out. -/
def Obligations.ScanTakesTwentySixPlusLiveSteps : Prop :=
  ∀ s : State, s.rst = false → s.busy = false → s.cmdValid = true → s.cmd = encode .scan →
    ∀ n, n ≤ 26 + liveCells s.world → ∃ t : State, Host.Core.run core n s = .next t ∧ t.world = s.world ∧
      (1 ≤ n → (t.busy = true ↔ n < 26 + liveCells s.world))

/-- R149: whatever the lines held when the SCAN was accepted, they are idle when it completes, with line writes that take
effect. -/
def Obligations.ScanEndsWithIdleLines : Prop :=
  ∀ s : State, s.rst = false → s.busy = false → s.cmdValid = true → s.cmd = encode .scan →
    s.params.lineWriteMayFail = false →
    ∃ t : State, Host.Core.run core (26 + liveCells s.world) s = .next t ∧ t.linesIdle = true ∧ t.sstate = .idle

/-- R148: after every number of its steps a SCAN has done to the lines exactly what the first commands of its LIGHT sequence
do, and nothing else but `sstate` has changed; whether or not line writes fail. -/
def Obligations.SweepIsItsLightSequence : Prop :=
  ∀ s : State, s.sstate = .cell 0 → ∀ n, n ≤ (lightSequence s.world).length →
    ∃ v, scanSteps n s = { performLights ((lightSequence s.world).take n) s with sstate := v } ∧
      (v = .idle ↔ n = (lightSequence s.world).length)

/-- R150: every step keeps the lines as the scan says, one LED at a time, unless it accepts a LIGHT; with line writes that
take effect. And then the lit set is the dwelling cell's, or empty. -/
def Obligations.OneLedAtATime : Prop :=
  (∀ s t : State, s.params.lineWriteMayFail = false → linesFollowScan s = true →
    (s.busy = false → s.cmdValid = true → ∀ on row col, decode s.cmd ≠ .command (.light on row col)) →
    step s = .next t → linesFollowScan t = true) ∧
  ∀ s : State, linesFollowScan s = true →
    (∀ k, s.sstate = .dwell k → litCells s = [k]) ∧ ((∀ k, s.sstate ≠ .dwell k) → litCells s = [])

/-- R151: the cells lit during a SCAN started from idle lines are exactly the live cells of `W`, each once, in row-major
order; with line writes that take effect. -/
def Obligations.PaintShowsExactlyTheLiveCells : Prop :=
  ∀ s : State, s.sstate = .cell 0 → s.linesIdle = true → s.params.lineWriteMayFail = false →
    (List.range (26 + liveCells s.world)).flatMap (fun n => litCells (scanSteps n s)) =
      (List.finRange 25).filter fun k => s.world.getLsbD k.val

/-! ### The machine (00_scope.md, 30_encoding.md R75, 60_exceptions.md, 70_reset_and_hazards.md) -/

/-- R75, R84, R221: the word presented to a block that is ready is accepted; decoding to a command, the step is that
command's meaning on the state with the word taken from the port; illegal, the step raises ILL. That `cmd_valid` falls in
this step and `cmd` keeps the word is the model's choice (log entry 12). -/
def Obligations.StepRunsTheDecodedCommand : Prop :=
  ∀ s : State, s.rst = false → s.busy = false → s.cmdValid = true →
    (∀ i, decode s.cmd = .command i → step s = exec i { s with cmdValid := false }) ∧
    (∀ why, decode s.cmd = .illegal why → step s = .next (illegalTaken s))

/-- R75, R256: while BUSY a presented command is held, neither executed nor lost; the world, the fault registers and the
host's registers stay as they are. -/
def Obligations.CommandIsHeldWhileBusy : Prop :=
  ∀ s : State, s.rst = false → s.busy = true → ∃ t, step s = .next t ∧
    t.cmd = s.cmd ∧ t.cmdValid = s.cmdValid ∧ t.world = s.world ∧ t.ill = s.ill ∧ t.illCmd = s.illCmd ∧
    t.prev = s.prev ∧ t.tickCount = s.tickCount ∧ t.sameBoardCount = s.sameBoardCount ∧ t.aIgnore = s.aIgnore ∧
    t.bIgnore = s.bIgnore ∧ t.bIgnoreCount = s.bIgnoreCount ∧ t.updateSerial = s.updateSerial ∧ t.point = s.point

/-- R11, R220, R222: no step stops the machine, from any state. -/
def Obligations.EveryStepAnswersANextState : Prop :=
  ∀ s : State, ∃ t, step s = .next t

/-- R20, R22, R24, R25, R29, R30: what each command leaves unchanged: none touches the fault registers, the ports, the
host's registers or the parameters; only LIGHT touches lines, only SCAN the sequencer, only STEP, RAND, LOAD and CPL the
world, and only RAND takes random bytes. -/
def Obligations.CommandFrames : Prop :=
  ∀ (i : Instr) (s t : State), exec i s = .next t →
    t = { s with world := t.world, row := t.row, col := t.col, sstate := t.sstate, env := t.env } ∧
    ((∀ on row col, i ≠ .light on row col) → t.row = s.row ∧ t.col = s.col ∧ t.env.lineOk = s.env.lineOk) ∧
    (i ≠ .scan → t.sstate = s.sstate) ∧
    (i ≠ .rand → t.env.bytes = s.env.bytes) ∧
    t.env = { s.env with bytes := t.env.bytes, lineOk := t.env.lineOk } ∧
    (i = .nop ∨ i = .scan ∨ (∃ on row col, i = .light on row col) → t.world = s.world)

/-- No step writes an OPEN parameter of R7. That the two a step reads are a field of State which no step writes is the
model's choice (DESIGN CHOICE, log entry 2). -/
def Obligations.ParametersAreNeverWritten : Prop :=
  ∀ s t : State, step s = .next t → t.params = s.params

/-- R251, R252: every piece of the block's and the host's state at reset. -/
def Obligations.ResetValues : Prop :=
  State.reset.world = 0 ∧ State.reset.row = 0b00000#5 ∧ State.reset.col = 0b11111#5 ∧ State.reset.ill = false ∧
  State.reset.illCmd = 0 ∧ State.reset.sstate = .idle ∧ State.reset.quiescent = true ∧ State.reset.busy = false ∧
  State.reset.status = 0x00000001#32 ∧ State.reset.linesIdle = true ∧ litCells State.reset = [] ∧
  State.reset.prev = 0 ∧ State.reset.tickCount = 0 ∧ State.reset.sameBoardCount = 0 ∧ State.reset.aIgnore = false ∧
  State.reset.bIgnore = false ∧ State.reset.bIgnoreCount = 0 ∧ State.reset.updateSerial = false ∧
  State.reset.phase = .boot ∧ State.reset.serial = []

/-- R250: a step with `rst` asserted leads to the reset state, whatever the machine was doing; a command presented then is
not accepted. The model's choices in this equation: `cmd` is 0 and `cmd_valid` low (log entry 4); `rst` is low again, the
presented word is dropped, and environment, parameters and driver stay (log entry 5); the point (log entry 6) and the empty
outbox (log entry 7). -/
def Obligations.ResetEvent : Prop :=
  ∀ s : State, s.rst = true →
    step s = .next { State.reset with driver := s.driver, env := s.env, params := s.params }

/-! ### The frame controller (42_frame_controller.md) -/

/-- R34, R38, R172, R173, R177: every step keeps the ranges of the host's counters. -/
def Obligations.EveryStepKeepsHostRanges : Prop :=
  ∀ s t : State, HostRanges s → step s = .next t → HostRanges t

/-- R183, R189, R222 and R150: every step of a run of the frame sequence keeps ILL clear, presents only the host's own
commands, is busy only inside F7, keeps the lines as the scan says (so they are idle when a SCAN starts), and has left to
write only the end of the rendering of the world shown. The driver, the points and the outbox are the model's own (log
entries 3, 6 and 7), and that `cmd_valid` falls when a word is accepted is its choice (log entry 12). -/
def Obligations.EveryStepKeepsFrameRun : Prop :=
  ∀ s t : State, FrameRun s → step s = .next t → FrameRun t

/-- R250 to R252: the two invariants hold at reset; the driver, the idle port, the point and the outbox there are the
model's choices (log entries 3, 4, 6 and 7). -/
def Obligations.InvariantsHoldAtReset : Prop :=
  HostRanges State.reset ∧ FrameRun State.reset

/-- R173: F2 does nothing below its threshold; above it the world is the STEP's, `P` and `same_board_count` follow the
compare of the new world with `P`, the stagnation RAND comes exactly when the count exceeds 50, `tick_count` is 0,
`update_serial` is set, one clear is sent, and nothing else changes, whether or not serial bytes are dropped. The form in
which answers are held is the model's choice (log entry 1), and so is what the idle port carries (log entry 12), which is
left out. -/
def Obligations.GenerationBoundary : Prop :=
  (∀ s : State, s.tickCount ≤ 10 → frameF2 s = s) ∧
  ∀ s : State, 10 < s.tickCount →
    let w := nextWorld s.world
    let same := if w = s.prev then s.sameBoardCount + 1 else 0
    let t := frameF2 s
    t = { s with
      world := t.world, prev := w, sameBoardCount := same, tickCount := 0, updateSerial := true
      serial := t.serial, env := { s.env with bytes := t.env.bytes, serialOk := t.env.serialOk }
      cmd := t.cmd, cmdValid := t.cmdValid } ∧
    sends [0x1B#8, 0x63#8] s t ∧
    (same ≤ 50 → t.world = w ∧ t.env.bytes = s.env.bytes) ∧
    (50 < same → t.env.bytes = ⟨s.env.bytes.queued.drop 25, s.env.bytes.taken + 25⟩ ∧
      ∀ k : Fin 25, t.world.getLsbD k.val =
        ((s.env.bytes.queued[k.val]?).getD (Config.freeByte (s.env.bytes.taken + k.val))).getLsbD 0)

/-- R171, R174, R175: F3 takes one reading of A; low randomizes the world, sets `a_ignore` and `update_serial` and sends a
clear, high does nothing, and nothing else changes, whether or not serial bytes are dropped. F4 takes a reading only when
`a_ignore` is set, and high clears it. The form in which readings and other answers are held is the model's choice (log
entry 1), and so is what the idle port carries (log entry 12), which is left out. -/
def Obligations.ButtonARandomizesWhileHeld : Prop :=
  ∀ s : State,
    let high := (s.env.levelA.queued[0]?).getD (Config.freeLevelA s.env.levelA.taken)
    let after : Env := { s.env with levelA := ⟨s.env.levelA.queued.drop 1, s.env.levelA.taken + 1⟩ }
    let t := frameF3 s
    (high = true → t = { s with env := after }) ∧
    (high = false →
      t = { s with
        world := t.world, aIgnore := true, updateSerial := true, serial := t.serial
        env := { after with
          bytes := ⟨s.env.bytes.queued.drop 25, s.env.bytes.taken + 25⟩, serialOk := t.env.serialOk }
        cmd := t.cmd, cmdValid := t.cmdValid } ∧
      sends [0x1B#8, 0x63#8] s t ∧
      ∀ k : Fin 25, t.world.getLsbD k.val =
        ((s.env.bytes.queued[k.val]?).getD (Config.freeByte (s.env.bytes.taken + k.val))).getLsbD 0) ∧
    (s.aIgnore = false → releaseA s = s) ∧
    (s.aIgnore = true → releaseA s = { s with env := after, aIgnore := !high })

/-- R176, R190 (6) and (7): F5 takes a reading of B only when both latches are clear; low complements the world, sets
`b_ignore` and `update_serial` and sends a clear, and nothing else changes, whether or not serial bytes are dropped; while
either latch is set F5 does nothing. The form in which readings are held is the model's choice (log entry 1), and so is the
clause that the idle port keeps the word of CPL with `cmd_valid` low (log entry 12). -/
def Obligations.ButtonBComplementsOnce : Prop :=
  (∀ s : State, (s.aIgnore = true ∨ s.bIgnore = true) → frameF5 s = s) ∧
  ∀ s : State, s.aIgnore = false → s.bIgnore = false →
    let high := (s.env.levelB.queued[0]?).getD (Config.freeLevelB s.env.levelB.taken)
    let after : Env := { s.env with levelB := ⟨s.env.levelB.queued.drop 1, s.env.levelB.taken + 1⟩ }
    let t := frameF5 s
    (high = true → t = { s with env := after }) ∧
    (high = false →
      t = { s with
        env := { after with serialOk := t.env.serialOk }
        world := s.world ^^^ 0x1FFFFFF#25, bIgnore := true, updateSerial := true, serial := t.serial
        cmd := 0x40000000#32, cmdValid := false } ∧
      sends [0x1B#8, 0x63#8] s t)

/-- R177: the cooldown step. -/
def Obligations.CooldownStep : Prop :=
  ∀ s : State,
    (s.bIgnore = true → s.bIgnoreCount < 100 → cooldown s = { s with bIgnoreCount := s.bIgnoreCount + 1 }) ∧
    ((s.bIgnore = false ∨ 100 ≤ s.bIgnoreCount) → cooldown s = { s with bIgnoreCount := 0, bIgnore := false })

/-- R178: F7 runs one whole SCAN of an unchanged world, leaves the sequencer at IDLE and, where line writes take effect, the
lines idle, sends the rendering iff `update_serial` was set, wherever in the sweep the bytes went, clears `update_serial`,
and changes nothing else, whether or not serial bytes are dropped. The outbox and the draws of the placement are the model's
own (log entry 7); what the idle port carries is its choice (log entry 12) and is left out. -/
def Obligations.PaintStep : Prop :=
  ∀ s : State,
    let t := frameF7 s
    t = { s with
      row := t.row, col := t.col, sstate := .idle, updateSerial := false, outbox := [], serial := t.serial
      env := { s.env with serialOk := t.env.serialOk, lineOk := t.env.lineOk, burst := t.env.burst }
      cmd := t.cmd, cmdValid := t.cmdValid } ∧
    sends (if s.updateSerial = true then renderRows s.world else []) s t ∧
    (s.params.lineWriteMayFail = false → t.linesIdle = true ∧ t.env.lineOk = s.env.lineOk)

/-- R65, R178, R182: wherever the row bytes are placed in the sweep, the bytes sent and those still to send are the same in
the same order: writing out what is left gives the same stream from after a busy step as from before it, whether or not
bytes are dropped; and with none dropped the stream and what is left make up the same bytes. The outbox and the draws of the
placement are the model's own (log entry 7). -/
def Obligations.PlacementKeepsTheStream : Prop :=
  ∀ s : State,
    (emit (scanTurn s).outbox (scanTurn s)).serial = (emit s.outbox s).serial ∧
    (s.params.serialMayDrop = false → (scanTurn s).serial ++ (scanTurn s).outbox = s.serial ++ s.outbox)

/-- R181: the rendering is five lines of five cell bytes and LF CR, 35 bytes, row 0 and column 0 first. The values 0x58 and
0x2E of the two cell bytes are PRESUMED: the source names the characters only, and R181 takes their codes from general
knowledge (G1; log entry 11). -/
def Obligations.RenderingLayout : Prop :=
  ∀ w : World, (renderRows w).length = 35 ∧
    ∀ r c : Fin 5,
      (renderRows w)[7 * r.val + c.val]? = some (if cellAt w r c = true then 0x58#8 else 0x2E#8) ∧
      (renderRows w)[7 * r.val + 5]? = some 0x0A#8 ∧ (renderRows w)[7 * r.val + 6]? = some 0x0D#8

/-- R182: an emission appends those of its bytes whose write succeeds, in order; with `SERIAL_MAY_DROP` byte `k` is kept
iff the `k`-th draw says so, without it every byte is kept; nothing else changes but the source of the draws. The form in
which answers are held is the model's choice (log entry 1). -/
def Obligations.SerialIsBestEffort : Prop :=
  ∀ (bytes : List Byte) (s : State),
    (s.params.serialMayDrop = false → emit bytes s = { s with serial := s.serial ++ bytes }) ∧
    (s.params.serialMayDrop = true →
      emit bytes s = { s with
        serial := s.serial ++ ((bytes.zipIdx.filter fun b =>
          (s.env.serialOk.queued[b.2]?).getD (Config.freeSerialOk (s.env.serialOk.taken + b.2))).map Prod.fst)
        env := { s.env with serialOk :=
          ⟨s.env.serialOk.queued.drop bytes.length, s.env.serialOk.taken + bytes.length⟩ } })

/-- R253: the boot sequence: three steps from BOOT, RAND alone, no serial byte, no line change, then F1. The model's choices
in it: the form in which answers are held (log entry 1), that the frame controller drives (3), how many steps the host takes
(6), and that the idle port keeps the word of RAND with `cmd_valid` low (12; its value before, 4). -/
def Obligations.BootIsOneRand : Prop :=
  ∀ s : State, s.rst = false → s.busy = false → s.cmdValid = false → s.driver = .frameController → s.point = .boot →
    ∃ w : World, Host.Core.run core 3 s = .next { s with
        world := w, point := .f1, cmd := 0x20000000#32
        env := { s.env with bytes := ⟨s.env.bytes.queued.drop 25, s.env.bytes.taken + 25⟩ } } ∧
      ∀ k : Fin 25, w.getLsbD k.val =
        ((s.env.bytes.queued[k.val]?).getD (Config.freeByte (s.env.bytes.taken + k.val))).getLsbD 0

/-- R179: the machine, run step by step from the start of a frame with the frame controller driving, reaches exactly the
state the whole-frame function gives, at the start of the next frame; under every answer of the environment and both
values of each OPEN parameter. The driver, the points and the outbox are the model's own (log entries 3, 6 and 7), and what
the idle port carries is its choice on both sides (log entry 12). -/
def Obligations.StepsRefineTheWholeFrame : Prop :=
  ∀ s : State, FrameStart s → FrameStart (frame s) ∧ ∃ n, Host.Core.run core n s = .next (frame s)

/-- R186: from `tick_count = 0` a generation comes in every 11th frame and in no other. -/
def Obligations.GenerationEveryEleventhFrame : Prop :=
  ∀ s : State, s.tickCount = 0 → ∀ n,
    (frames n s).tickCount = n % 11 ∧ (generationDue (tick (frames n s)) = true ↔ n % 11 = 10)

/-- R185: a frame whose F5 complements ends with the count at 1; frame `F + j` ends with `j + 1` for `j` up to 99, frame
`F + 100` clears the latch and the count, and B is not sampled in frames `F + 1` to `F + 100`. -/
def Obligations.ButtonBCooldownTiming : Prop :=
  (∀ s : State, s.bIgnore = false → s.bIgnoreCount = 0 → (frame s).bIgnore = true → (frame s).bIgnoreCount = 1) ∧
  ∀ s : State, s.bIgnore = true → s.bIgnoreCount = 1 →
    (∀ j, j ≤ 99 → (frames j s).bIgnore = true ∧ (frames j s).bIgnoreCount = j + 1) ∧
    (frames 100 s).bIgnore = false ∧ (frames 100 s).bIgnoreCount = 0 ∧
    ∀ j, j ≤ 100 → (frames j s).env.levelB = s.env.levelB

/-- R187: with no button acting and `a_ignore` clear, a frame below the boundary leaves the world, `P` and the count; at
the boundary of a still world equal to `P` the count goes up by one, `P` stays, and the world stays while the count is at
most 50; the boundary at which it exceeds 50 takes 25 random bytes, and the world of the frame is their bits 0. The form in
which answers are held is the model's choice (log entry 1). -/
def Obligations.StagnationCountsEqualBoundaries : Prop :=
  ∀ s : State, s.aIgnore = false → (pressedA s).1 = false → (sampleB s).1 = false →
    (s.tickCount < 10 → (frame s).world = s.world ∧ (frame s).prev = s.prev ∧
      (frame s).sameBoardCount = s.sameBoardCount ∧ (frame s).env.bytes = s.env.bytes) ∧
    (s.tickCount = 10 → nextWorld s.world = s.world → s.prev = s.world →
      (frame s).prev = s.prev ∧ (frame s).sameBoardCount = s.sameBoardCount + 1 ∧
      (s.sameBoardCount < 50 → (frame s).world = s.world ∧ (frame s).env.bytes = s.env.bytes) ∧
      (50 ≤ s.sameBoardCount →
        (frame s).env.bytes = ⟨s.env.bytes.queued.drop 25, s.env.bytes.taken + 25⟩ ∧
        ∀ k : Fin 25, (frame s).world.getLsbD k.val =
          ((s.env.bytes.queued[k.val]?).getD (Config.freeByte (s.env.bytes.taken + k.val))).getLsbD 0))

/-- R191: a frame sends one clear for each of F2, F3 and F5 that acted and then the rendering of the world shown, if any
acted or `update_serial` was already set, and nothing otherwise, whether or not serial bytes are dropped. The form in which
readings and other answers are held is the model's choice (log entry 1). -/
def Obligations.SerialStreamOfAFrame : Prop :=
  ∀ s : State,
    let clears := (if 10 ≤ s.tickCount then 1 else 0) + (if (pressedA s).1 = true then 1 else 0) +
      (if (sampleB (releaseA (frameF3 (frameF2 (tick s))))).1 = true then 1 else 0)
    sends ((List.replicate clears [0x1B#8, 0x63#8]).flatten ++
      (if clears = 0 ∧ s.updateSerial = false then [] else renderRows (frame s).world)) s (frame s)
end

