-- ==== Sys2Proof/Laws/Bits.lean ====
section
/-! SUPPORT. Reading back a written bit, the bits of a built word, the lit set and the status word bit by bit. -/

namespace Sys2Proof.Machine

@[simp] theorem getLsbD_writeBit {n : Nat} (v : BitVec n) (i j : Nat) (b : Bool) :
    (writeBit v i b).getLsbD j = if j = i ∧ i < n then b else v.getLsbD j := by
  unfold writeBit
  cases b <;> by_cases hj : j < n <;> by_cases hij : i = j <;>
    simp_all [eq_comm]

@[simp] theorem getLsbD_ofBits (f : Nat → Bool) (n i : Nat) :
    (ofBits f n).getLsbD i = (decide (i < n) && f i) := by
  induction n with
  | zero => simp [ofBits]
  | succ n ih => simp only [ofBits, BitVec.getLsbD_cons, ih]; grind

/-- Two worlds that agree on every cell are equal (R51). -/
theorem world_ext {v w : World} (h : ∀ k : Fin 25, v.getLsbD k.val = w.getLsbD k.val) : v = w :=
  BitVec.eq_of_getLsbD_eq fun i hi => h ⟨i, hi⟩

/-- Two line registers that agree on every line are equal (R24, R25). -/
theorem lines_ext {v w : Lines} (h : ∀ i : Fin 5, v.getLsbD i.val = w.getLsbD i.val) : v = w :=
  BitVec.eq_of_getLsbD_eq fun i hi => h ⟨i, hi⟩

theorem busy_iff (s : State) : s.busy = true ↔ s.sstate ≠ .idle := by simp [State.busy]

theorem not_busy_iff (s : State) : s.busy = false ↔ s.sstate = .idle := by simp [State.busy]

/-- Bit 0 of the status word is QUIESCENT (R32). -/
@[simp] theorem status_quiescent (s : State) : s.status.getLsbD 0 = s.quiescent := by
  rw [State.status, BitVec.getLsbD_append]; simp

/-- Bit 1 of the status word is BUSY (R32). -/
@[simp] theorem status_busy (s : State) : s.status.getLsbD 1 = s.busy := by
  rw [State.status, BitVec.getLsbD_append, BitVec.getLsbD_append]; simp

/-- Bit 2 of the status word is ILL (R32). -/
@[simp] theorem status_ill (s : State) : s.status.getLsbD 2 = s.ill := by
  rw [State.status, BitVec.getLsbD_append, BitVec.getLsbD_append, BitVec.getLsbD_append]; simp

/-- Row and column give the index back (R51). -/
@[simp] theorem cellIndex_cellRow_cellCol (k : Fin 25) : cellIndex (cellRow k) (cellCol k) = k := by
  ext; simp only [cellIndex, cellRow, cellCol]; omega

@[simp] theorem cellRow_cellIndex (r c : Fin 5) : cellRow (cellIndex r c) = r := by
  ext; simp only [cellIndex, cellRow]; omega

@[simp] theorem cellCol_cellIndex (r c : Fin 5) : cellCol (cellIndex r c) = c := by
  ext; simp only [cellIndex, cellCol]; omega

/-- The cell `(r, c)` of a world built from its bits. -/
theorem cellAt_ofBits (f : Nat → Bool) (r c : Fin 5) : cellAt (ofBits f 25) r c = f (cellIndex r c).val := by
  rw [cellAt, getLsbD_ofBits]; simp [(cellIndex r c).isLt]

end Sys2Proof.Machine
end

