-- ==== Sys2Proof/Laws/State.lean ====
section
/-! SUPPORT. What each named update of the state does to each field: one lemma per field per update. -/

namespace Sys2Proof.Machine

/-! ### setWorld -/

@[simp] theorem setWorld_world (w : World) (s : State) : (setWorld w s).world = w := rfl
@[simp] theorem setWorld_row (w : World) (s : State) : (setWorld w s).row = s.row := rfl
@[simp] theorem setWorld_col (w : World) (s : State) : (setWorld w s).col = s.col := rfl
@[simp] theorem setWorld_ill (w : World) (s : State) : (setWorld w s).ill = s.ill := rfl
@[simp] theorem setWorld_illCmd (w : World) (s : State) : (setWorld w s).illCmd = s.illCmd := rfl
@[simp] theorem setWorld_sstate (w : World) (s : State) : (setWorld w s).sstate = s.sstate := rfl
@[simp] theorem setWorld_cmd (w : World) (s : State) : (setWorld w s).cmd = s.cmd := rfl
@[simp] theorem setWorld_cmdValid (w : World) (s : State) : (setWorld w s).cmdValid = s.cmdValid := rfl
@[simp] theorem setWorld_rst (w : World) (s : State) : (setWorld w s).rst = s.rst := rfl
@[simp] theorem setWorld_prev (w : World) (s : State) : (setWorld w s).prev = s.prev := rfl
@[simp] theorem setWorld_tickCount (w : World) (s : State) : (setWorld w s).tickCount = s.tickCount := rfl
@[simp] theorem setWorld_sameBoardCount (w : World) (s : State) : (setWorld w s).sameBoardCount = s.sameBoardCount := rfl
@[simp] theorem setWorld_aIgnore (w : World) (s : State) : (setWorld w s).aIgnore = s.aIgnore := rfl
@[simp] theorem setWorld_bIgnore (w : World) (s : State) : (setWorld w s).bIgnore = s.bIgnore := rfl
@[simp] theorem setWorld_bIgnoreCount (w : World) (s : State) : (setWorld w s).bIgnoreCount = s.bIgnoreCount := rfl
@[simp] theorem setWorld_updateSerial (w : World) (s : State) : (setWorld w s).updateSerial = s.updateSerial := rfl
@[simp] theorem setWorld_point (w : World) (s : State) : (setWorld w s).point = s.point := rfl
@[simp] theorem setWorld_serial (w : World) (s : State) : (setWorld w s).serial = s.serial := rfl
@[simp] theorem setWorld_outbox (w : World) (s : State) : (setWorld w s).outbox = s.outbox := rfl
@[simp] theorem setWorld_driver (w : World) (s : State) : (setWorld w s).driver = s.driver := rfl
@[simp] theorem setWorld_env (w : World) (s : State) : (setWorld w s).env = s.env := rfl
@[simp] theorem setWorld_params (w : World) (s : State) : (setWorld w s).params = s.params := rfl

/-! ### setScan -/

@[simp] theorem setScan_world (v : ScanState) (s : State) : (setScan v s).world = s.world := rfl
@[simp] theorem setScan_row (v : ScanState) (s : State) : (setScan v s).row = s.row := rfl
@[simp] theorem setScan_col (v : ScanState) (s : State) : (setScan v s).col = s.col := rfl
@[simp] theorem setScan_ill (v : ScanState) (s : State) : (setScan v s).ill = s.ill := rfl
@[simp] theorem setScan_illCmd (v : ScanState) (s : State) : (setScan v s).illCmd = s.illCmd := rfl
@[simp] theorem setScan_sstate (v : ScanState) (s : State) : (setScan v s).sstate = v := rfl
@[simp] theorem setScan_cmd (v : ScanState) (s : State) : (setScan v s).cmd = s.cmd := rfl
@[simp] theorem setScan_cmdValid (v : ScanState) (s : State) : (setScan v s).cmdValid = s.cmdValid := rfl
@[simp] theorem setScan_rst (v : ScanState) (s : State) : (setScan v s).rst = s.rst := rfl
@[simp] theorem setScan_prev (v : ScanState) (s : State) : (setScan v s).prev = s.prev := rfl
@[simp] theorem setScan_tickCount (v : ScanState) (s : State) : (setScan v s).tickCount = s.tickCount := rfl
@[simp] theorem setScan_sameBoardCount (v : ScanState) (s : State) : (setScan v s).sameBoardCount = s.sameBoardCount := rfl
@[simp] theorem setScan_aIgnore (v : ScanState) (s : State) : (setScan v s).aIgnore = s.aIgnore := rfl
@[simp] theorem setScan_bIgnore (v : ScanState) (s : State) : (setScan v s).bIgnore = s.bIgnore := rfl
@[simp] theorem setScan_bIgnoreCount (v : ScanState) (s : State) : (setScan v s).bIgnoreCount = s.bIgnoreCount := rfl
@[simp] theorem setScan_updateSerial (v : ScanState) (s : State) : (setScan v s).updateSerial = s.updateSerial := rfl
@[simp] theorem setScan_point (v : ScanState) (s : State) : (setScan v s).point = s.point := rfl
@[simp] theorem setScan_serial (v : ScanState) (s : State) : (setScan v s).serial = s.serial := rfl
@[simp] theorem setScan_outbox (v : ScanState) (s : State) : (setScan v s).outbox = s.outbox := rfl
@[simp] theorem setScan_driver (v : ScanState) (s : State) : (setScan v s).driver = s.driver := rfl
@[simp] theorem setScan_env (v : ScanState) (s : State) : (setScan v s).env = s.env := rfl
@[simp] theorem setScan_params (v : ScanState) (s : State) : (setScan v s).params = s.params := rfl

/-! ### present -/

@[simp] theorem present_world (w : Cmd) (s : State) : (present w s).world = s.world := rfl
@[simp] theorem present_row (w : Cmd) (s : State) : (present w s).row = s.row := rfl
@[simp] theorem present_col (w : Cmd) (s : State) : (present w s).col = s.col := rfl
@[simp] theorem present_ill (w : Cmd) (s : State) : (present w s).ill = s.ill := rfl
@[simp] theorem present_illCmd (w : Cmd) (s : State) : (present w s).illCmd = s.illCmd := rfl
@[simp] theorem present_sstate (w : Cmd) (s : State) : (present w s).sstate = s.sstate := rfl
@[simp] theorem present_cmd (w : Cmd) (s : State) : (present w s).cmd = w := rfl
@[simp] theorem present_cmdValid (w : Cmd) (s : State) : (present w s).cmdValid = true := rfl
@[simp] theorem present_rst (w : Cmd) (s : State) : (present w s).rst = s.rst := rfl
@[simp] theorem present_prev (w : Cmd) (s : State) : (present w s).prev = s.prev := rfl
@[simp] theorem present_tickCount (w : Cmd) (s : State) : (present w s).tickCount = s.tickCount := rfl
@[simp] theorem present_sameBoardCount (w : Cmd) (s : State) : (present w s).sameBoardCount = s.sameBoardCount := rfl
@[simp] theorem present_aIgnore (w : Cmd) (s : State) : (present w s).aIgnore = s.aIgnore := rfl
@[simp] theorem present_bIgnore (w : Cmd) (s : State) : (present w s).bIgnore = s.bIgnore := rfl
@[simp] theorem present_bIgnoreCount (w : Cmd) (s : State) : (present w s).bIgnoreCount = s.bIgnoreCount := rfl
@[simp] theorem present_updateSerial (w : Cmd) (s : State) : (present w s).updateSerial = s.updateSerial := rfl
@[simp] theorem present_point (w : Cmd) (s : State) : (present w s).point = s.point := rfl
@[simp] theorem present_serial (w : Cmd) (s : State) : (present w s).serial = s.serial := rfl
@[simp] theorem present_outbox (w : Cmd) (s : State) : (present w s).outbox = s.outbox := rfl
@[simp] theorem present_driver (w : Cmd) (s : State) : (present w s).driver = s.driver := rfl
@[simp] theorem present_env (w : Cmd) (s : State) : (present w s).env = s.env := rfl
@[simp] theorem present_params (w : Cmd) (s : State) : (present w s).params = s.params := rfl

/-! ### presentReady -/

@[simp] theorem presentReady_world (w : Cmd) (s : State) : (presentReady w s).world = s.world := rfl
@[simp] theorem presentReady_row (w : Cmd) (s : State) : (presentReady w s).row = s.row := rfl
@[simp] theorem presentReady_col (w : Cmd) (s : State) : (presentReady w s).col = s.col := rfl
@[simp] theorem presentReady_ill (w : Cmd) (s : State) : (presentReady w s).ill = s.ill := rfl
@[simp] theorem presentReady_illCmd (w : Cmd) (s : State) : (presentReady w s).illCmd = s.illCmd := rfl
@[simp] theorem presentReady_sstate (w : Cmd) (s : State) : (presentReady w s).sstate = .idle := rfl
@[simp] theorem presentReady_cmd (w : Cmd) (s : State) : (presentReady w s).cmd = w := rfl
@[simp] theorem presentReady_cmdValid (w : Cmd) (s : State) : (presentReady w s).cmdValid = true := rfl
@[simp] theorem presentReady_rst (w : Cmd) (s : State) : (presentReady w s).rst = false := rfl
@[simp] theorem presentReady_prev (w : Cmd) (s : State) : (presentReady w s).prev = s.prev := rfl
@[simp] theorem presentReady_tickCount (w : Cmd) (s : State) : (presentReady w s).tickCount = s.tickCount := rfl
@[simp] theorem presentReady_sameBoardCount (w : Cmd) (s : State) : (presentReady w s).sameBoardCount = s.sameBoardCount := rfl
@[simp] theorem presentReady_aIgnore (w : Cmd) (s : State) : (presentReady w s).aIgnore = s.aIgnore := rfl
@[simp] theorem presentReady_bIgnore (w : Cmd) (s : State) : (presentReady w s).bIgnore = s.bIgnore := rfl
@[simp] theorem presentReady_bIgnoreCount (w : Cmd) (s : State) : (presentReady w s).bIgnoreCount = s.bIgnoreCount := rfl
@[simp] theorem presentReady_updateSerial (w : Cmd) (s : State) : (presentReady w s).updateSerial = s.updateSerial := rfl
@[simp] theorem presentReady_point (w : Cmd) (s : State) : (presentReady w s).point = s.point := rfl
@[simp] theorem presentReady_serial (w : Cmd) (s : State) : (presentReady w s).serial = s.serial := rfl
@[simp] theorem presentReady_outbox (w : Cmd) (s : State) : (presentReady w s).outbox = s.outbox := rfl
@[simp] theorem presentReady_driver (w : Cmd) (s : State) : (presentReady w s).driver = s.driver := rfl
@[simp] theorem presentReady_env (w : Cmd) (s : State) : (presentReady w s).env = s.env := rfl
@[simp] theorem presentReady_params (w : Cmd) (s : State) : (presentReady w s).params = s.params := rfl

/-! ### takeCommand -/

@[simp] theorem takeCommand_world (s : State) : (takeCommand s).world = s.world := rfl
@[simp] theorem takeCommand_row (s : State) : (takeCommand s).row = s.row := rfl
@[simp] theorem takeCommand_col (s : State) : (takeCommand s).col = s.col := rfl
@[simp] theorem takeCommand_ill (s : State) : (takeCommand s).ill = s.ill := rfl
@[simp] theorem takeCommand_illCmd (s : State) : (takeCommand s).illCmd = s.illCmd := rfl
@[simp] theorem takeCommand_sstate (s : State) : (takeCommand s).sstate = s.sstate := rfl
@[simp] theorem takeCommand_cmd (s : State) : (takeCommand s).cmd = s.cmd := rfl
@[simp] theorem takeCommand_cmdValid (s : State) : (takeCommand s).cmdValid = false := rfl
@[simp] theorem takeCommand_rst (s : State) : (takeCommand s).rst = s.rst := rfl
@[simp] theorem takeCommand_prev (s : State) : (takeCommand s).prev = s.prev := rfl
@[simp] theorem takeCommand_tickCount (s : State) : (takeCommand s).tickCount = s.tickCount := rfl
@[simp] theorem takeCommand_sameBoardCount (s : State) : (takeCommand s).sameBoardCount = s.sameBoardCount := rfl
@[simp] theorem takeCommand_aIgnore (s : State) : (takeCommand s).aIgnore = s.aIgnore := rfl
@[simp] theorem takeCommand_bIgnore (s : State) : (takeCommand s).bIgnore = s.bIgnore := rfl
@[simp] theorem takeCommand_bIgnoreCount (s : State) : (takeCommand s).bIgnoreCount = s.bIgnoreCount := rfl
@[simp] theorem takeCommand_updateSerial (s : State) : (takeCommand s).updateSerial = s.updateSerial := rfl
@[simp] theorem takeCommand_point (s : State) : (takeCommand s).point = s.point := rfl
@[simp] theorem takeCommand_serial (s : State) : (takeCommand s).serial = s.serial := rfl
@[simp] theorem takeCommand_outbox (s : State) : (takeCommand s).outbox = s.outbox := rfl
@[simp] theorem takeCommand_driver (s : State) : (takeCommand s).driver = s.driver := rfl
@[simp] theorem takeCommand_env (s : State) : (takeCommand s).env = s.env := rfl
@[simp] theorem takeCommand_params (s : State) : (takeCommand s).params = s.params := rfl

/-! ### goTo -/

@[simp] theorem goTo_world (p : FramePoint) (s : State) : (goTo p s).world = s.world := rfl
@[simp] theorem goTo_row (p : FramePoint) (s : State) : (goTo p s).row = s.row := rfl
@[simp] theorem goTo_col (p : FramePoint) (s : State) : (goTo p s).col = s.col := rfl
@[simp] theorem goTo_ill (p : FramePoint) (s : State) : (goTo p s).ill = s.ill := rfl
@[simp] theorem goTo_illCmd (p : FramePoint) (s : State) : (goTo p s).illCmd = s.illCmd := rfl
@[simp] theorem goTo_sstate (p : FramePoint) (s : State) : (goTo p s).sstate = s.sstate := rfl
@[simp] theorem goTo_cmd (p : FramePoint) (s : State) : (goTo p s).cmd = s.cmd := rfl
@[simp] theorem goTo_cmdValid (p : FramePoint) (s : State) : (goTo p s).cmdValid = s.cmdValid := rfl
@[simp] theorem goTo_rst (p : FramePoint) (s : State) : (goTo p s).rst = s.rst := rfl
@[simp] theorem goTo_prev (p : FramePoint) (s : State) : (goTo p s).prev = s.prev := rfl
@[simp] theorem goTo_tickCount (p : FramePoint) (s : State) : (goTo p s).tickCount = s.tickCount := rfl
@[simp] theorem goTo_sameBoardCount (p : FramePoint) (s : State) : (goTo p s).sameBoardCount = s.sameBoardCount := rfl
@[simp] theorem goTo_aIgnore (p : FramePoint) (s : State) : (goTo p s).aIgnore = s.aIgnore := rfl
@[simp] theorem goTo_bIgnore (p : FramePoint) (s : State) : (goTo p s).bIgnore = s.bIgnore := rfl
@[simp] theorem goTo_bIgnoreCount (p : FramePoint) (s : State) : (goTo p s).bIgnoreCount = s.bIgnoreCount := rfl
@[simp] theorem goTo_updateSerial (p : FramePoint) (s : State) : (goTo p s).updateSerial = s.updateSerial := rfl
@[simp] theorem goTo_point (p : FramePoint) (s : State) : (goTo p s).point = p := rfl
@[simp] theorem goTo_serial (p : FramePoint) (s : State) : (goTo p s).serial = s.serial := rfl
@[simp] theorem goTo_outbox (p : FramePoint) (s : State) : (goTo p s).outbox = s.outbox := rfl
@[simp] theorem goTo_driver (p : FramePoint) (s : State) : (goTo p s).driver = s.driver := rfl
@[simp] theorem goTo_env (p : FramePoint) (s : State) : (goTo p s).env = s.env := rfl
@[simp] theorem goTo_params (p : FramePoint) (s : State) : (goTo p s).params = s.params := rfl

/-! ### raiseIll -/

@[simp] theorem raiseIll_world (w : Cmd) (s : State) : (raiseIll w s).world = s.world := rfl
@[simp] theorem raiseIll_row (w : Cmd) (s : State) : (raiseIll w s).row = s.row := rfl
@[simp] theorem raiseIll_col (w : Cmd) (s : State) : (raiseIll w s).col = s.col := rfl
@[simp] theorem raiseIll_ill (w : Cmd) (s : State) : (raiseIll w s).ill = true := rfl
@[simp] theorem raiseIll_illCmd (w : Cmd) (s : State) : (raiseIll w s).illCmd = if s.ill then s.illCmd else w := rfl
@[simp] theorem raiseIll_sstate (w : Cmd) (s : State) : (raiseIll w s).sstate = s.sstate := rfl
@[simp] theorem raiseIll_cmd (w : Cmd) (s : State) : (raiseIll w s).cmd = s.cmd := rfl
@[simp] theorem raiseIll_cmdValid (w : Cmd) (s : State) : (raiseIll w s).cmdValid = s.cmdValid := rfl
@[simp] theorem raiseIll_rst (w : Cmd) (s : State) : (raiseIll w s).rst = s.rst := rfl
@[simp] theorem raiseIll_prev (w : Cmd) (s : State) : (raiseIll w s).prev = s.prev := rfl
@[simp] theorem raiseIll_tickCount (w : Cmd) (s : State) : (raiseIll w s).tickCount = s.tickCount := rfl
@[simp] theorem raiseIll_sameBoardCount (w : Cmd) (s : State) : (raiseIll w s).sameBoardCount = s.sameBoardCount := rfl
@[simp] theorem raiseIll_aIgnore (w : Cmd) (s : State) : (raiseIll w s).aIgnore = s.aIgnore := rfl
@[simp] theorem raiseIll_bIgnore (w : Cmd) (s : State) : (raiseIll w s).bIgnore = s.bIgnore := rfl
@[simp] theorem raiseIll_bIgnoreCount (w : Cmd) (s : State) : (raiseIll w s).bIgnoreCount = s.bIgnoreCount := rfl
@[simp] theorem raiseIll_updateSerial (w : Cmd) (s : State) : (raiseIll w s).updateSerial = s.updateSerial := rfl
@[simp] theorem raiseIll_point (w : Cmd) (s : State) : (raiseIll w s).point = s.point := rfl
@[simp] theorem raiseIll_serial (w : Cmd) (s : State) : (raiseIll w s).serial = s.serial := rfl
@[simp] theorem raiseIll_outbox (w : Cmd) (s : State) : (raiseIll w s).outbox = s.outbox := rfl
@[simp] theorem raiseIll_driver (w : Cmd) (s : State) : (raiseIll w s).driver = s.driver := rfl
@[simp] theorem raiseIll_env (w : Cmd) (s : State) : (raiseIll w s).env = s.env := rfl
@[simp] theorem raiseIll_params (w : Cmd) (s : State) : (raiseIll w s).params = s.params := rfl

/-! ### tick -/

@[simp] theorem tick_world (s : State) : (tick s).world = s.world := rfl
@[simp] theorem tick_row (s : State) : (tick s).row = s.row := rfl
@[simp] theorem tick_col (s : State) : (tick s).col = s.col := rfl
@[simp] theorem tick_ill (s : State) : (tick s).ill = s.ill := rfl
@[simp] theorem tick_illCmd (s : State) : (tick s).illCmd = s.illCmd := rfl
@[simp] theorem tick_sstate (s : State) : (tick s).sstate = s.sstate := rfl
@[simp] theorem tick_cmd (s : State) : (tick s).cmd = s.cmd := rfl
@[simp] theorem tick_cmdValid (s : State) : (tick s).cmdValid = s.cmdValid := rfl
@[simp] theorem tick_rst (s : State) : (tick s).rst = s.rst := rfl
@[simp] theorem tick_prev (s : State) : (tick s).prev = s.prev := rfl
@[simp] theorem tick_tickCount (s : State) : (tick s).tickCount = s.tickCount + 1 := rfl
@[simp] theorem tick_sameBoardCount (s : State) : (tick s).sameBoardCount = s.sameBoardCount := rfl
@[simp] theorem tick_aIgnore (s : State) : (tick s).aIgnore = s.aIgnore := rfl
@[simp] theorem tick_bIgnore (s : State) : (tick s).bIgnore = s.bIgnore := rfl
@[simp] theorem tick_bIgnoreCount (s : State) : (tick s).bIgnoreCount = s.bIgnoreCount := rfl
@[simp] theorem tick_updateSerial (s : State) : (tick s).updateSerial = s.updateSerial := rfl
@[simp] theorem tick_point (s : State) : (tick s).point = s.point := rfl
@[simp] theorem tick_serial (s : State) : (tick s).serial = s.serial := rfl
@[simp] theorem tick_outbox (s : State) : (tick s).outbox = s.outbox := rfl
@[simp] theorem tick_driver (s : State) : (tick s).driver = s.driver := rfl
@[simp] theorem tick_env (s : State) : (tick s).env = s.env := rfl
@[simp] theorem tick_params (s : State) : (tick s).params = s.params := rfl

/-! ### resetTick -/

@[simp] theorem resetTick_world (s : State) : (resetTick s).world = s.world := rfl
@[simp] theorem resetTick_row (s : State) : (resetTick s).row = s.row := rfl
@[simp] theorem resetTick_col (s : State) : (resetTick s).col = s.col := rfl
@[simp] theorem resetTick_ill (s : State) : (resetTick s).ill = s.ill := rfl
@[simp] theorem resetTick_illCmd (s : State) : (resetTick s).illCmd = s.illCmd := rfl
@[simp] theorem resetTick_sstate (s : State) : (resetTick s).sstate = s.sstate := rfl
@[simp] theorem resetTick_cmd (s : State) : (resetTick s).cmd = s.cmd := rfl
@[simp] theorem resetTick_cmdValid (s : State) : (resetTick s).cmdValid = s.cmdValid := rfl
@[simp] theorem resetTick_rst (s : State) : (resetTick s).rst = s.rst := rfl
@[simp] theorem resetTick_prev (s : State) : (resetTick s).prev = s.prev := rfl
@[simp] theorem resetTick_tickCount (s : State) : (resetTick s).tickCount = 0 := rfl
@[simp] theorem resetTick_sameBoardCount (s : State) : (resetTick s).sameBoardCount = s.sameBoardCount := rfl
@[simp] theorem resetTick_aIgnore (s : State) : (resetTick s).aIgnore = s.aIgnore := rfl
@[simp] theorem resetTick_bIgnore (s : State) : (resetTick s).bIgnore = s.bIgnore := rfl
@[simp] theorem resetTick_bIgnoreCount (s : State) : (resetTick s).bIgnoreCount = s.bIgnoreCount := rfl
@[simp] theorem resetTick_updateSerial (s : State) : (resetTick s).updateSerial = s.updateSerial := rfl
@[simp] theorem resetTick_point (s : State) : (resetTick s).point = s.point := rfl
@[simp] theorem resetTick_serial (s : State) : (resetTick s).serial = s.serial := rfl
@[simp] theorem resetTick_outbox (s : State) : (resetTick s).outbox = s.outbox := rfl
@[simp] theorem resetTick_driver (s : State) : (resetTick s).driver = s.driver := rfl
@[simp] theorem resetTick_env (s : State) : (resetTick s).env = s.env := rfl
@[simp] theorem resetTick_params (s : State) : (resetTick s).params = s.params := rfl

/-! ### fillOutbox -/

@[simp] theorem fillOutbox_world (s : State) : (fillOutbox s).world = s.world := rfl
@[simp] theorem fillOutbox_row (s : State) : (fillOutbox s).row = s.row := rfl
@[simp] theorem fillOutbox_col (s : State) : (fillOutbox s).col = s.col := rfl
@[simp] theorem fillOutbox_ill (s : State) : (fillOutbox s).ill = s.ill := rfl
@[simp] theorem fillOutbox_illCmd (s : State) : (fillOutbox s).illCmd = s.illCmd := rfl
@[simp] theorem fillOutbox_sstate (s : State) : (fillOutbox s).sstate = s.sstate := rfl
@[simp] theorem fillOutbox_cmd (s : State) : (fillOutbox s).cmd = s.cmd := rfl
@[simp] theorem fillOutbox_cmdValid (s : State) : (fillOutbox s).cmdValid = s.cmdValid := rfl
@[simp] theorem fillOutbox_rst (s : State) : (fillOutbox s).rst = s.rst := rfl
@[simp] theorem fillOutbox_prev (s : State) : (fillOutbox s).prev = s.prev := rfl
@[simp] theorem fillOutbox_tickCount (s : State) : (fillOutbox s).tickCount = s.tickCount := rfl
@[simp] theorem fillOutbox_sameBoardCount (s : State) : (fillOutbox s).sameBoardCount = s.sameBoardCount := rfl
@[simp] theorem fillOutbox_aIgnore (s : State) : (fillOutbox s).aIgnore = s.aIgnore := rfl
@[simp] theorem fillOutbox_bIgnore (s : State) : (fillOutbox s).bIgnore = s.bIgnore := rfl
@[simp] theorem fillOutbox_bIgnoreCount (s : State) : (fillOutbox s).bIgnoreCount = s.bIgnoreCount := rfl
@[simp] theorem fillOutbox_updateSerial (s : State) : (fillOutbox s).updateSerial = s.updateSerial := rfl
@[simp] theorem fillOutbox_point (s : State) : (fillOutbox s).point = s.point := rfl
@[simp] theorem fillOutbox_serial (s : State) : (fillOutbox s).serial = s.serial := rfl
@[simp] theorem fillOutbox_outbox (s : State) : (fillOutbox s).outbox = if s.updateSerial then renderRows s.world else [] := rfl
@[simp] theorem fillOutbox_driver (s : State) : (fillOutbox s).driver = s.driver := rfl
@[simp] theorem fillOutbox_env (s : State) : (fillOutbox s).env = s.env := rfl
@[simp] theorem fillOutbox_params (s : State) : (fillOutbox s).params = s.params := rfl

end Sys2Proof.Machine
end

