-- ==== Sys2Proof/Laws/Ops.lean ====
section
/-! SUPPORT. What each shared operation can do, said once: draws, line writes, LIGHT's pair of writes, serial writes, the
turn, and the inversion of one step. -/

namespace Sys2Proof.Machine

/-! ### Draws -/

theorem drawFrom_eq {α : Type} (free : Nat → α) (src : Source α) :
    drawFrom free src = ((src.queued[0]?).getD (free src.taken), ⟨src.queued.drop 1, src.taken + 1⟩) := by
  rcases src with ⟨_ | ⟨x, rest⟩, n⟩ <;> rfl

/-- `n` draws: answer `k` is the `k`-th fixed answer, or the free value at its count. -/
theorem drawMany_spec {α : Type} (free : Nat → α) (n : Nat) (src : Source α) :
    (drawMany free n src).1.length = n ∧
    (drawMany free n src).2 = ⟨src.queued.drop n, src.taken + n⟩ ∧
    ∀ k, k < n → (drawMany free n src).1[k]? = some ((src.queued[k]?).getD (free (src.taken + k))) := by
  induction n generalizing src with
  | zero => simp [drawMany]
  | succ n ih =>
    obtain ⟨hl, hs, hk⟩ := ih (drawFrom free src).2
    refine ⟨by simp [drawMany, hl], ?_, ?_⟩
    · rw [drawMany, hs, drawFrom_eq]; simp [Nat.add_comm, Nat.add_left_comm]
    · intro k hlt
      cases k with
      | zero => simp [drawMany, drawFrom_eq]
      | succ k =>
        have := hk k (by omega)
        simpa [drawMany, drawFrom_eq, Nat.add_comm, Nat.add_left_comm] using this

/-! ### Line writes -/

/-- One line write's draw touches only the line source, and takes none where line writes do not fail (R152). -/
theorem lineOk_cases (s : State) : ∃ ok src,
    lineOk s = (ok, { s with env := { s.env with lineOk := src } }) ∧
    (s.params.lineWriteMayFail = false → ok = true ∧ src = s.env.lineOk) := by
  unfold lineOk
  split
  · exact ⟨_, _, rfl, fun h => absurd h (by simp_all)⟩
  · exact ⟨true, s.env.lineOk, rfl, fun _ => ⟨rfl, rfl⟩⟩

/-- LIGHT's pair of writes: the row line and the column line, each written or lost; nothing else but the line source
changes; with reliable lines both are written and no draw is taken (R142, R152). -/
theorem driveCell_cases (r c : Fin 5) (on : Bool) (s : State) : ∃ okRow okCol src,
    driveCell r c on s =
      { s with row := if okRow then writeBit s.row r.val on else s.row
               col := if okCol then writeBit s.col c.val (!on) else s.col
               env := { s.env with lineOk := src } } ∧
    (s.params.lineWriteMayFail = false → okRow = true ∧ okCol = true ∧ src = s.env.lineOk) := by
  obtain ⟨o1, src1, h1, r1⟩ := lineOk_cases s
  have hrow : writeRow r on s =
      { s with row := if o1 then writeBit s.row r.val on else s.row, env := { s.env with lineOk := src1 } } := by
    unfold writeRow; rw [h1]; cases o1 <;> rfl
  obtain ⟨o2, src2, h2, r2⟩ := lineOk_cases (writeRow r on s)
  refine ⟨o1, o2, src2, ?_, fun h => ?_⟩
  · unfold driveCell writeCol
    rw [h2, hrow]; cases o2 <;> rfl
  · have a := r1 h
    have b := r2 (by rw [hrow]; exact h)
    exact ⟨a.1, b.1, by rw [b.2, hrow]; exact a.2⟩

/-- LIGHT's pair of writes with reliable lines (R142). -/
theorem driveCell_of_reliable (r c : Fin 5) (on : Bool) (s : State) (h : s.params.lineWriteMayFail = false) :
    driveCell r c on s = { s with row := writeBit s.row r.val on, col := writeBit s.col c.val (!on) } := by
  obtain ⟨o1, o2, src, he, hr⟩ := driveCell_cases r c on s
  obtain ⟨rfl, rfl, rfl⟩ := hr h
  simpa using he

/-! ### The sequencer -/

/-- A block step of the sequencer changes the lines, the line source and `sstate`, nothing else (R145, R146). -/
theorem scanStep_frame (s : State) : ∃ row col src v,
    scanStep s = { s with row := row, col := col, env := { s.env with lineOk := src }, sstate := v } := by
  unfold scanStep
  split
  · exact ⟨s.row, s.col, s.env.lineOk, s.sstate, rfl⟩
  · rename_i k _
    unfold scanCell
    split
    · obtain ⟨_, _, _, he, -⟩ := driveCell_cases (cellRow k) (cellCol k) true s
      exact ⟨_, _, _, _, by rw [he]; rfl⟩
    · obtain ⟨_, _, _, he, -⟩ := driveCell_cases (cellRow k) (cellCol k) false s
      exact ⟨_, _, _, _, by rw [he]; rfl⟩
  · rename_i k _
    obtain ⟨_, _, _, he, -⟩ := driveCell_cases (cellRow k) (cellCol k) false s
    exact ⟨_, _, _, _, by unfold scanDwell; rw [he]; rfl⟩

/-- Where a sequencer step leads: a live cell dwells, every other step goes to `next(k)` (R145, R146). -/
theorem scanStep_sstate (s : State) : (scanStep s).sstate =
    match s.sstate with
    | .idle => .idle
    | .cell k => if s.world.getLsbD k.val then .dwell k else scanNext k
    | .dwell k => scanNext k := by
  unfold scanStep
  cases h : s.sstate with
  | idle => exact h
  | cell k =>
    simp only [scanCell]
    by_cases hl : s.world.getLsbD k.val = true
    · rw [if_pos hl, if_pos hl]; rfl
    · rw [if_neg hl, if_neg hl]; rfl
  | dwell k => rfl

/-! ### Serial writes -/

/-- One byte write appends the byte or loses it, and touches only the serial source besides (R182). -/
theorem writeSerial_cases (b : Byte) (s : State) : ∃ kept src,
    writeSerial b s = { s with serial := s.serial ++ kept, env := { s.env with serialOk := src } } ∧
    (kept = [b] ∨ kept = []) ∧
    (s.params.serialMayDrop = false → kept = [b] ∧ src = s.env.serialOk) := by
  unfold writeSerial serialOk
  cases hm : s.params.serialMayDrop with
  | false => exact ⟨[b], s.env.serialOk, by simp, .inl rfl, fun _ => ⟨rfl, rfl⟩⟩
  | true =>
    cases hd : (drawFrom Config.freeSerialOk s.env.serialOk).1 with
    | true => exact ⟨[b], (drawFrom Config.freeSerialOk s.env.serialOk).2, by simp [hd], .inl rfl, by simp⟩
    | false => exact ⟨[], (drawFrom Config.freeSerialOk s.env.serialOk).2, by simp [hd], .inr rfl, by simp⟩

/-- An emission appends a subsequence of its bytes, all of them where bytes are not dropped, and touches only the serial
source besides (R182). -/
theorem emit_cases (bytes : List Byte) (s : State) : ∃ kept src,
    emit bytes s = { s with serial := s.serial ++ kept, env := { s.env with serialOk := src } } ∧
    kept.Sublist bytes ∧
    (s.params.serialMayDrop = false → kept = bytes ∧ src = s.env.serialOk) := by
  induction bytes generalizing s with
  | nil => exact ⟨[], s.env.serialOk, by simp [emit], List.Sublist.refl _, fun _ => ⟨rfl, rfl⟩⟩
  | cons b rest ih =>
    obtain ⟨k1, src1, h1, hk1, hr1⟩ := writeSerial_cases b s
    obtain ⟨k2, src2, h2, hk2, hr2⟩ := ih (writeSerial b s)
    refine ⟨k1 ++ k2, src2, ?_, ?_, fun h => ?_⟩
    · rw [emit, h2, h1]; simp
    · rcases hk1 with rfl | rfl
      · exact hk2.cons_cons b
      · exact hk2.cons b
    · obtain ⟨rfl, rfl⟩ := hr1 h
      obtain ⟨rfl, rfl⟩ := hr2 (by rw [h1]; exact h)
      exact ⟨rfl, by rw [h1]⟩

/-- Two emissions one after the other are one emission of all the bytes (R182). -/
theorem emit_append (first later : List Byte) (s : State) : emit (first ++ later) s = emit later (emit first s) := by
  induction first generalizing s with
  | nil => rfl
  | cons b rest ih => exact ih _

/-- What one byte write does to the stream and its source depends on these and the parameter alone (R182). -/
theorem writeSerial_congr (b : Byte) {s t : State} (hs : t.serial = s.serial) (he : t.env.serialOk = s.env.serialOk)
    (hp : t.params.serialMayDrop = s.params.serialMayDrop) :
    (writeSerial b t).serial = (writeSerial b s).serial ∧
    (writeSerial b t).env.serialOk = (writeSerial b s).env.serialOk ∧
    (writeSerial b t).params.serialMayDrop = (writeSerial b s).params.serialMayDrop := by
  unfold writeSerial serialOk
  rw [hp, he]
  cases hm : s.params.serialMayDrop with
  | false => simp [hs, he, hp]
  | true => cases hd : (drawFrom Config.freeSerialOk s.env.serialOk).1 <;> simp [hd, hs, hp]

/-- What an emission does to the stream and its source depends on these and the parameter alone (R182). -/
theorem emit_congr (bytes : List Byte) {s t : State} (hs : t.serial = s.serial)
    (he : t.env.serialOk = s.env.serialOk) (hp : t.params.serialMayDrop = s.params.serialMayDrop) :
    (emit bytes t).serial = (emit bytes s).serial ∧ (emit bytes t).env.serialOk = (emit bytes s).env.serialOk := by
  induction bytes generalizing s t with
  | nil => exact ⟨hs, he⟩
  | cons b rest ih =>
    obtain ⟨h1, h2, h3⟩ := writeSerial_congr b hs he hp
    exact ih h1 h2 h3

/-- The interleaved emission moves bytes from the outbox to the stream and touches nothing else but its sources (R178). -/
theorem interleave_cases (s : State) : ∃ n kept srcOk srcBurst,
    interleave s = { s with
      outbox := s.outbox.drop n
      serial := s.serial ++ kept
      env := { s.env with serialOk := srcOk, burst := srcBurst } } ∧
    kept.Sublist (s.outbox.take n) ∧
    (s.params.serialMayDrop = false → kept = s.outbox.take n ∧ srcOk = s.env.serialOk) := by
  unfold interleave
  split
  · rename_i h
    exact ⟨0, [], s.env.serialOk, s.env.burst, by simp, by simp, fun _ => ⟨by simp, rfl⟩⟩
  · rename_i b rest h
    obtain ⟨kept, src, he, hk, hr⟩ := emit_cases (s.outbox.take (drawFrom Config.freeBurst s.env.burst).1)
      { s with outbox := s.outbox.drop (drawFrom Config.freeBurst s.env.burst).1
               env := { s.env with burst := (drawFrom Config.freeBurst s.env.burst).2 } }
    refine ⟨(drawFrom Config.freeBurst s.env.burst).1, kept, src, (drawFrom Config.freeBurst s.env.burst).2, ?_, hk, hr⟩
    simpa [drawBurst] using he

/-- A step of the busy machine, in one frame: lines, sequencer, row bytes and their sources (R145, R146, R178). -/
theorem scanTurn_frame (s : State) : ∃ n kept row col env v,
    scanTurn s = { s with
      outbox := s.outbox.drop n, serial := s.serial ++ kept, row := row, col := col, env := env, sstate := v } := by
  obtain ⟨n, kept, _, _, hi, -, -⟩ := interleave_cases s
  obtain ⟨row, col, src, v, hs⟩ := scanStep_frame (interleave s)
  exact ⟨n, kept, row, col, _, v, by unfold scanTurn; rw [hs, hi]⟩

/-! ### Samples -/

theorem pressedA_eq (s : State) : ∃ down src, pressedA s = (down, { s with env := { s.env with levelA := src } }) :=
  ⟨_, _, rfl⟩

theorem sampleB_cases (s : State) : ∃ down src,
    sampleB s = (down, { s with env := { s.env with levelB := src } }) ∧
    (down = true → s.aIgnore = false ∧ s.bIgnore = false) ∧
    (s.aIgnore = true ∨ s.bIgnore = true → src = s.env.levelB) := by
  unfold sampleB
  split
  · rename_i h
    exact ⟨_, _, rfl, fun _ => h, by simp [h]⟩
  · exact ⟨false, s.env.levelB, rfl, by simp, fun _ => rfl⟩

/-! ### Turns and steps -/

theorem turn_reset {s : State} : s.turn = .reset ↔ s.rst = true := by
  unfold State.turn; repeat' split
  all_goals simp_all

theorem turn_sequencer {s : State} : s.turn = .sequencer ↔ s.rst = false ∧ s.busy = true := by
  unfold State.turn; repeat' split
  all_goals simp_all

theorem turn_accept {s : State} : s.turn = .accept ↔ s.rst = false ∧ s.busy = false ∧ s.cmdValid = true := by
  unfold State.turn; repeat' split
  all_goals simp_all

theorem turn_driver {s : State} : s.turn = .driver ↔ s.rst = false ∧ s.busy = false ∧ s.cmdValid = false := by
  unfold State.turn; repeat' split
  all_goals simp_all

/-- The state a command leads to: every command completes. -/
def afterInstr : Instr → State → State
  | .nop => id
  | .step => stepWorld
  | .rand => randWorld
  | .load data => loadWorld data
  | .cpl => complementWorld
  | .light on row col => lightLines on row col
  | .scan => startScan

theorem exec_eq (i : Instr) (s : State) : exec i s = .next (afterInstr i s) := by cases i <;> rfl

/-- Everything one step can do (R6, R61): a reset, a sequencer step, an accepted command, a recorded illegal word, or an
action of the driver. -/
theorem step_cases (s : State) :
    (s.rst = true ∧ step s = .next (applyReset s)) ∨
    (s.rst = false ∧ s.busy = true ∧ step s = .next (scanTurn s)) ∨
    (s.rst = false ∧ s.busy = false ∧ s.cmdValid = true ∧
      ((∃ i, decode s.cmd = .command i ∧ step s = .next (afterInstr i (takeCommand s))) ∨
       (∃ why, decode s.cmd = .illegal why ∧ step s = .next (raiseIll s.cmd (takeCommand s))))) ∨
    (s.rst = false ∧ s.busy = false ∧ s.cmdValid = false ∧ step s = .next (driverStep s)) := by
  cases ht : s.turn with
  | reset => exact .inl ⟨turn_reset.1 ht, by simp [step, ht]⟩
  | sequencer =>
    obtain ⟨h1, h2⟩ := turn_sequencer.1 ht
    exact .inr (.inl ⟨h1, h2, by simp [step, ht]⟩)
  | accept =>
    obtain ⟨h1, h2, h3⟩ := turn_accept.1 ht
    refine .inr (.inr (.inl ⟨h1, h2, h3, ?_⟩))
    cases hd : decode s.cmd with
    | command i => exact .inl ⟨i, rfl, by simp [step, ht, acceptStep, hd, exec_eq]⟩
    | illegal why => exact .inr ⟨why, rfl, by simp [step, ht, acceptStep, hd]⟩
  | driver =>
    obtain ⟨h1, h2, h3⟩ := turn_driver.1 ht
    exact .inr (.inr (.inr ⟨h1, h2, h3, by simp [step, ht]⟩))

end Sys2Proof.Machine
end

