-- ==== Sys2Proof/Laws/Life.lean ====
section
/-! SUPPORT. The life unit cell by cell: the neighbour sum, the table, and the cells of the worlds the commands write. -/

namespace Sys2Proof.Machine

/-- The sum of eight bits is at most eight (R101). -/
theorem nsum_le (w : World) (k : Fin 25) : nsum w k ≤ 8 := by
  have hb : ∀ b : Bool, b.toNat ≤ 1 := by decide
  simp only [nsum, neighbours, ringOffsets, List.map, List.sum_cons, List.sum_nil]
  have h1 := hb (w.getLsbD (neighbourAt k (-1, -1)))
  have h2 := hb (w.getLsbD (neighbourAt k (-1, 0)))
  have h3 := hb (w.getLsbD (neighbourAt k (-1, 1)))
  have h4 := hb (w.getLsbD (neighbourAt k (0, -1)))
  have h5 := hb (w.getLsbD (neighbourAt k (0, 1)))
  have h6 := hb (w.getLsbD (neighbourAt k (1, -1)))
  have h7 := hb (w.getLsbD (neighbourAt k (1, 0)))
  have h8 := hb (w.getLsbD (neighbourAt k (1, 1)))
  omega

/-- A cell of the next world is the table's entry for its snapshot value and neighbour sum (R104). -/
theorem getLsbD_nextWorld (w : World) (k : Fin 25) :
    (nextWorld w).getLsbD k.val = lut (w.getLsbD k.val) (nsum w k) := by
  rw [nextWorld, getLsbD_ofBits, nextCell]
  simp [k.isLt]

/-- A cell of a randomized world is bit 0 of its byte (R106). -/
theorem getLsbD_worldOfBytes (bytes : List Byte) (k : Fin 25) :
    (worldOfBytes bytes).getLsbD k.val = (bytes.getD k.val 0#8).getLsbD 0 := by
  rw [worldOfBytes, getLsbD_ofBits]
  simp [k.isLt]

/-- RAND writes the world and takes 25 answers of the entropy source; nothing else changes (R106). -/
theorem randWorld_eq (s : State) : randWorld s =
    { s with world := worldOfBytes (drawMany Config.freeByte 25 s.env.bytes).1
             env := { s.env with bytes := ⟨s.env.bytes.queued.drop 25, s.env.bytes.taken + 25⟩ } } := by
  rw [← (drawMany_spec Config.freeByte 25 s.env.bytes).2.1]
  rfl

theorem stepWorld_eq (s : State) : stepWorld s = { s with world := nextWorld s.world } := rfl

theorem loadWorld_eq (data : BitVec 25) (s : State) : loadWorld data s = { s with world := data } := rfl

theorem complementWorld_eq (s : State) : complementWorld s = { s with world := s.world ^^^ 0x1FFFFFF#25 } := rfl

/-- The fields a command leaves alone, whichever it is: fault registers, ports, host and parameters (R22, R24, R29). -/
theorem afterInstr_frame (i : Instr) (s : State) : ∃ world row col env v,
    afterInstr i s = { s with world := world, row := row, col := col, env := env, sstate := v } := by
  cases i with
  | nop => exact ⟨s.world, s.row, s.col, s.env, s.sstate, rfl⟩
  | step => exact ⟨_, s.row, s.col, s.env, s.sstate, stepWorld_eq s⟩
  | rand => exact ⟨_, s.row, s.col, _, s.sstate, randWorld_eq s⟩
  | load data => exact ⟨_, s.row, s.col, s.env, s.sstate, loadWorld_eq data s⟩
  | cpl => exact ⟨_, s.row, s.col, s.env, s.sstate, complementWorld_eq s⟩
  | light on row col =>
    simp only [afterInstr, lightLines]
    split
    · rename_i r c _ _
      obtain ⟨_, _, _, he, -⟩ := driveCell_cases r c on s
      exact ⟨s.world, _, _, _, s.sstate, by rw [he]⟩
    all_goals exact ⟨s.world, s.row, s.col, s.env, s.sstate, rfl⟩
  | scan => exact ⟨s.world, s.row, s.col, s.env, _, rfl⟩

end Sys2Proof.Machine
end

