-- ==== Sys2Proof/Laws/Accept.lean ====
section
/-! SUPPORT. An accepted word: what an illegal one leaves, and the step that accepts. -/

namespace Sys2Proof.Machine

/-- ILL raised on the word just taken, field by field (R221). -/
theorem raiseIll_takeCommand (s : State) : raiseIll s.cmd (takeCommand s) = illegalTaken s := rfl

/-- The step that accepts a command is its meaning (R75, R84). -/
theorem step_accept {s : State} {i : Instr} (hr : s.rst = false) (hb : s.busy = false) (hv : s.cmdValid = true)
    (hd : decode s.cmd = .command i) : step s = exec i (takeCommand s) := by
  simp [step, turn_accept.2 ⟨hr, hb, hv⟩, acceptStep, hd]

/-- The step that accepts an illegal word raises ILL (R221). -/
theorem step_illegal {s : State} {why : Illegal} (hr : s.rst = false) (hb : s.busy = false) (hv : s.cmdValid = true)
    (hd : decode s.cmd = .illegal why) : step s = .next (illegalTaken s) := by
  simp only [step, turn_accept.2 ⟨hr, hb, hv⟩, acceptStep, hd, raiseIll_takeCommand]

/-- The step of a busy machine (R75, R145, R146). -/
theorem step_busy {s : State} (hr : s.rst = false) (hb : s.busy = true) : step s = .next (scanTurn s) := by
  simp only [step, turn_sequencer.2 ⟨hr, hb⟩]

/-- The step in which the driver acts (R183). -/
theorem step_driver {s : State} (hr : s.rst = false) (hb : s.busy = false) (hv : s.cmdValid = false) :
    step s = .next (driverStep s) := by
  simp only [step, turn_driver.2 ⟨hr, hb, hv⟩]

end Sys2Proof.Machine
end

