-- ==== Sys2Proof/Laws/Frame.lean ====
section
/-! SUPPORT. The host's updates and actions: what each one leaves alone, said once. -/

namespace Sys2Proof.Machine

/-- A clear appends a subsequence of ESC c, both bytes where none is dropped, and touches only the serial source besides
(R180, R182). -/
theorem clearTerminal_cases (s : State) : ∃ kept src,
    clearTerminal s = { s with serial := s.serial ++ kept, env := { s.env with serialOk := src } } ∧
    kept.Sublist clearBytes ∧
    (s.params.serialMayDrop = false → kept = clearBytes ∧ src = s.env.serialOk) := emit_cases clearBytes s

/-- After the compare `P` is the new world, equal or copied (R173). -/
theorem compareSnapshot_eq (s : State) : compareSnapshot s =
    { s with prev := s.world, sameBoardCount := if s.world = s.prev then s.sameBoardCount + 1 else 0 } := by
  unfold compareSnapshot
  split
  · rename_i h; rw [h]
  · rfl

/-- What F2 does between its STEP and its stagnation test (R173). -/
theorem afterGeneration_cases (s : State) : ∃ kept src,
    afterGeneration s = { s with
      serial := s.serial ++ kept, env := { s.env with serialOk := src }, updateSerial := true, prev := s.world
      sameBoardCount := if s.world = s.prev then s.sameBoardCount + 1 else 0 } ∧
    (s.params.serialMayDrop = false → kept = clearBytes ∧ src = s.env.serialOk) := by
  obtain ⟨kept, src, he, -, hr⟩ := clearTerminal_cases s
  exact ⟨kept, src, by unfold afterGeneration; rw [compareSnapshot_eq, he], hr⟩

/-- What F3 does after its RAND (R174). -/
theorem afterPressA_cases (s : State) : ∃ kept src,
    afterPressA s = { s with
      serial := s.serial ++ kept, env := { s.env with serialOk := src }, aIgnore := true, updateSerial := true } ∧
    (s.params.serialMayDrop = false → kept = clearBytes ∧ src = s.env.serialOk) := by
  obtain ⟨kept, src, he, -, hr⟩ := clearTerminal_cases { s with aIgnore := true, updateSerial := true }
  exact ⟨kept, src, by unfold afterPressA; rw [he], hr⟩

/-- What F5 does after its CPL (R176). -/
theorem afterPressB_cases (s : State) : ∃ kept src,
    afterPressB s = { s with
      serial := s.serial ++ kept, env := { s.env with serialOk := src }, bIgnore := true, updateSerial := true } ∧
    (s.params.serialMayDrop = false → kept = clearBytes ∧ src = s.env.serialOk) := by
  obtain ⟨kept, src, he, -, hr⟩ := clearTerminal_cases { s with bIgnore := true, updateSerial := true }
  exact ⟨kept, src, by unfold afterPressB; rw [he], hr⟩

/-- F4 touches `a_ignore` and the source of A, neither where `a_ignore` is clear (R175). -/
theorem releaseA_cases (s : State) : ∃ latch src,
    releaseA s = { s with aIgnore := latch, env := { s.env with levelA := src } } ∧
    (s.aIgnore = false → latch = false ∧ src = s.env.levelA) := by
  unfold releaseA
  obtain ⟨down, src, hp⟩ := pressedA_eq s
  rw [hp]
  by_cases ha : s.aIgnore = true
  · rw [if_pos ha]
    refine ⟨down && s.aIgnore, src, ?_, fun h => absurd ha (by simp [h])⟩
    cases down <;> simp
  · rw [if_neg ha]
    exact ⟨s.aIgnore, s.env.levelA, rfl, fun h => ⟨h, rfl⟩⟩

/-- F7 after its SCAN: the row bytes left go out, all of them where none is dropped (R178). -/
theorem finishPaint_cases (s : State) : ∃ kept src,
    finishPaint s = { s with
      serial := s.serial ++ kept, env := { s.env with serialOk := src }, outbox := [], updateSerial := false } ∧
    (s.params.serialMayDrop = false → kept = s.outbox ∧ src = s.env.serialOk) := by
  obtain ⟨kept, src, he, -, hr⟩ := emit_cases s.outbox { s with outbox := [] }
  exact ⟨kept, src, by unfold finishPaint; rw [he], hr⟩

/-- No host action touches the block: world, lines, fault registers and sequencer stay (R22, R24, R29, R183). -/
theorem hostStep_block (s : State) :
    (hostStep s).world = s.world ∧ (hostStep s).row = s.row ∧ (hostStep s).col = s.col ∧
    (hostStep s).ill = s.ill ∧ (hostStep s).illCmd = s.illCmd ∧ (hostStep s).sstate = s.sstate ∧
    (hostStep s).rst = s.rst ∧ (hostStep s).driver = s.driver ∧ (hostStep s).params = s.params := by
  unfold hostStep
  split
  case h_2 | h_1 | h_3 | h_8 | h_9 | h_13 | h_14 | h_17 | h_6 => exact ⟨rfl, rfl, rfl, rfl, rfl, rfl, rfl, rfl, rfl⟩
  case h_4 => split <;> exact ⟨rfl, rfl, rfl, rfl, rfl, rfl, rfl, rfl, rfl⟩
  case h_5 =>
    obtain ⟨kept, src, he, -⟩ := afterGeneration_cases s
    by_cases hs : stagnant (afterGeneration s) = true
    · simp only [hs, if_true]; rw [he]; exact ⟨rfl, rfl, rfl, rfl, rfl, rfl, rfl, rfl, rfl⟩
    · simp only [hs]; rw [he]; exact ⟨rfl, rfl, rfl, rfl, rfl, rfl, rfl, rfl, rfl⟩
  case h_7 => exact ⟨rfl, rfl, rfl, rfl, rfl, rfl, rfl, rfl, rfl⟩
  case h_10 =>
    obtain ⟨kept, src, he, -⟩ := afterPressA_cases s
    rw [he]; exact ⟨rfl, rfl, rfl, rfl, rfl, rfl, rfl, rfl, rfl⟩
  case h_11 =>
    obtain ⟨latch, src, he, -⟩ := releaseA_cases s
    rw [he]; exact ⟨rfl, rfl, rfl, rfl, rfl, rfl, rfl, rfl, rfl⟩
  case h_12 =>
    obtain ⟨down, src, he, -⟩ := sampleB_cases s
    simp only [he]; exact ⟨rfl, rfl, rfl, rfl, rfl, rfl, rfl, rfl, rfl⟩
  case h_15 =>
    obtain ⟨kept, src, he, -⟩ := afterPressB_cases s
    rw [he]; exact ⟨rfl, rfl, rfl, rfl, rfl, rfl, rfl, rfl, rfl⟩
  case h_16 => unfold cooldown; split <;> exact ⟨rfl, rfl, rfl, rfl, rfl, rfl, rfl, rfl, rfl⟩
  case h_18 =>
    obtain ⟨kept, src, he, -⟩ := finishPaint_cases s
    rw [he]; exact ⟨rfl, rfl, rfl, rfl, rfl, rfl, rfl, rfl, rfl⟩

/-- No action of the driver touches the block (R22, R24, R29). -/
theorem driverStep_block (s : State) :
    (driverStep s).world = s.world ∧ (driverStep s).row = s.row ∧ (driverStep s).col = s.col ∧
    (driverStep s).ill = s.ill ∧ (driverStep s).illCmd = s.illCmd ∧ (driverStep s).sstate = s.sstate ∧
    (driverStep s).rst = s.rst ∧ (driverStep s).params = s.params := by
  unfold driverStep
  split
  · obtain ⟨h1, h2, h3, h4, h5, h6, h7, _, h9⟩ := hostStep_block s
    exact ⟨h1, h2, h3, h4, h5, h6, h7, h9⟩
  · exact ⟨rfl, rfl, rfl, rfl, rfl, rfl, rfl, rfl⟩
  · exact ⟨rfl, rfl, rfl, rfl, rfl, rfl, rfl, rfl⟩

/-- A SCAN run to its end touches what one busy step touches (R145, R146, R178). -/
theorem runScan_frame (fuel : Nat) (s : State) : ∃ outbox kept row col env v,
    runScan fuel s = { s with
      outbox := outbox, serial := s.serial ++ kept, row := row, col := col, env := env, sstate := v } := by
  induction fuel generalizing s with
  | zero => exact ⟨s.outbox, [], s.row, s.col, s.env, s.sstate, by simp [runScan]⟩
  | succ fuel ih =>
    unfold runScan
    split
    · obtain ⟨n, kept, row, col, env, v, ht⟩ := scanTurn_frame s
      obtain ⟨outbox', kept', row', col', env', v', hr⟩ := ih (scanTurn s)
      exact ⟨outbox', kept ++ kept', row', col', env', v', by rw [hr, ht]; simp⟩
    · exact ⟨s.outbox, [], s.row, s.col, s.env, s.sstate, by simp⟩

end Sys2Proof.Machine
end

