-- ==== Sys2Proof/Laws/PerInstr.lean ====
section
/-! SUPPORT. Statements made once per command. Opcode: the word of a command is selected by its own row of the mask and
match table and by no other row (R82). -/

namespace Sys2Proof.Laws.Opcode

/-- The row of the table that selects the command's word is the command's own, and only that one. -/
abbrev Statement (i : Instr) : Prop :=
  ∀ row ∈ opcodeTable, row.selects (encode i) = true ↔ row = opcodeRowOf i

/-- The bits of a LOAD word outside `DATA` are the row's match (R73, R82). -/
theorem load_mask (data : BitVec 25) : encode (.load data) &&& 0xFE000000#32 = 0x30000000#32 := by
  apply BitVec.eq_of_getLsbD_eq
  intro i hi
  rw [encode, BitVec.getLsbD_and, BitVec.getLsbD_append]
  split
  · interval_cases i <;> simp
  · interval_cases i <;> first | omega | rfl

/-- A row that selects a LOAD word has LOAD's opcode in its match (R71). -/
theorem load_opcode (data : BitVec 25) (row : OpcodeRow) (hm : row.mask &&& 0xF0000000#32 = 0xF0000000#32)
    (hs : row.selects (encode (.load data)) = true) : row.matchBits &&& 0xF0000000#32 = 0x30000000#32 := by
  have h : encode (.load data) &&& row.mask = row.matchBits := by simpa [OpcodeRow.selects] using hs
  rw [← h, BitVec.and_assoc, hm]
  have hl := congrArg (· &&& 0xF0000000#32) (load_mask data)
  simpa [BitVec.and_assoc] using hl

theorem nop : Statement .nop := by decide

theorem step : Statement .step := by decide

theorem rand : Statement .rand := by decide

theorem load (data : BitVec 25) : Statement (.load data) := by
  intro row hrow
  have hmask : ∀ row ∈ opcodeTable, row.mask &&& 0xF0000000#32 = 0xF0000000#32 := by decide
  have hmatch : ∀ row ∈ opcodeTable, row.matchBits &&& 0xF0000000#32 = 0x30000000#32 →
      row = opcodeRowOf (.load 0) := by decide
  constructor
  · exact fun hs => hmatch row hrow (load_opcode data row (hmask row hrow) hs)
  · rintro rfl
    simpa [OpcodeRow.selects, opcodeRowOf] using load_mask data

theorem cpl : Statement .cpl := by decide

theorem light (on : Bool) (row col : BitVec 3) : Statement (.light on row col) := by
  revert on row col; decide

theorem scan : Statement .scan := by decide

end Sys2Proof.Laws.Opcode
end

