-- ==== Sys2Proof/Tests/Slice0.lean ====
section
/-! SUPPORT. Tests: expected values from the spec's test vectors (95_test_vectors.md), rules and encodings; and one witness
for each statement with hypotheses. -/

namespace Sys2Proof.Tests

open Sys2Proof.Machine

/-- The next state of an outcome, none where it stops. -/
def nextOf (o : Host.Outcome State Fault Refusal) : Option State :=
  match o with
  | .next t => some t
  | .fault _ => none
  | .refused _ => none

/-- The reset state with a word presented. -/
def presenting (w : Cmd) : State := presentReady w State.reset

/-- The reset state with a world, reliable lines and no serial byte dropped. -/
def showing (w : World) : State := { State.reset with world := w, params := ⟨false, false⟩ }

/-- A state with the sequencer busy at `v`, outside any frame. -/
def scanning (w : World) (v : ScanState) : State := { showing w with sstate := v }

/-- A state with fixed answers for the random bytes and the buttons. -/
def answering (bytes : List Byte) (levelA levelB : List Bool) (s : State) : State :=
  { s with env := { s.env with bytes := ⟨bytes, 0⟩, levelA := ⟨levelA, 0⟩, levelB := ⟨levelB, 0⟩ } }

/-! ### Decoding: words written out bit by bit from R72 to R74; rejected words from vectors E-2 to E-10 -/

theorem test_decode_nop : decode 0b0000_0000000000000000000000000000#32 = .command .nop := by decide
theorem test_decode_step : decode 0b0001_0000000000000000000000000000#32 = .command .step := by decide
theorem test_decode_rand : decode 0b0010_0000000000000000000000000000#32 = .command .rand := by decide
theorem test_decode_load : decode 0b0011_000_0000000000011000110000000#32 = .command (.load 0x0003180#25) := by decide
theorem test_decode_load_top_bit : decode 0b0011_000_1000000000000000000000001#32 = .command (.load 0x1000001#25) := by
  decide
theorem test_decode_cpl : decode 0b0100_0000000000000000000000000000#32 = .command .cpl := by decide
theorem test_decode_light_on : decode 0b0101_1_00000000000000000000_010_0_011#32 = .command (.light true 2 3) := by decide
theorem test_decode_light_off : decode 0b0101_0_00000000000000000000_100_0_111#32 = .command (.light false 4 7) := by decide
theorem test_decode_scan : decode 0b0110_0000000000000000000000000000#32 = .command .scan := by decide
theorem test_decode_rejects : [0x10000001#32, 0x32000000#32, 0x3E000000#32, 0x50000008#32, 0x58000080#32, 0x5800007F#32,
    0x60000001#32].map decode = List.replicate 7 (.illegal .reservedBit) := by decide
theorem test_decode_reserved_opcodes : [0x70000000#32, 0xF0000000#32, 0xFFFFFFFF#32].map decode =
    List.replicate 3 (.illegal .reservedOpcode) := by decide
theorem test_table_word : decodeTableWord 32 0x5800_0023 = some (.light true 2 3) := by decide
theorem test_table_word_illegal : decodeTableWord 32 0x7000_0000 = none := by decide
theorem test_table_rows_do_not_overlap : opcodeTable.Pairwise fun a b : OpcodeRow => a.matchBits >>> 28 ≠ b.matchBits >>> 28 := by
  decide

/-! ### Well-formedness: an ill-formed line for each check (R83, R85) -/

theorem test_asm_load_too_wide : asmWellFormed (.load 0x2000000) = false := by decide
theorem test_asm_row_too_large : asmWellFormed (.light 8 0 true) = false := by decide
theorem test_asm_col_too_large : asmWellFormed (.light 0 8 true) = false := by decide
theorem test_asm_on_row_too_large : asmWellFormed (.lightOn 8 0) = false := by decide
theorem test_asm_on_col_too_large : asmWellFormed (.lightOn 0 8) = false := by decide
theorem test_asm_off_row_too_large : asmWellFormed (.lightOff 8 0) = false := by decide
theorem test_asm_off_col_too_large : asmWellFormed (.lightOff 0 8) = false := by decide
theorem test_asm_grid_short : asmWellFormed (.loadg [".....".toList]) = false := by decide
theorem test_asm_grid_narrow : asmWellFormed (.loadg (List.replicate 5 "....".toList)) = false := by decide
theorem test_asm_grid_text : asmWellFormed (.loadg (List.replicate 5 "..o..".toList)) = false := by decide
theorem test_asm_in_range : asmWellFormed (.load 0x1FFFFFF) = true ∧ asmWellFormed (.light 7 7 false) = true := by decide

/-! ### Assembler text (R83, R85, R86) -/

theorem test_text_light : readLine "  light 2, 3, ON ; one LED".toList = .command (.light true 2 3) := by decide
theorem test_text_load : readLine "LOAD 0x0003800".toList = .command (.load 0x0003800#25) := by decide
theorem test_text_comment : readLine "  ; nothing".toList = .empty := by decide
theorem test_text_range : readLine "LIGHT 8, 0, ON".toList = .error := by decide
theorem test_text_paint : readLine "paint".toList = .command .scan := by decide
theorem test_text_loadg : readLine "LOADG \".X...\",\"..X..\",\"XXX..\",\".....\",\".....\"".toList =
    .command (.load 0x0001C82#25) := by decide

/-! ### The life unit: vectors W-1, N-4, R-1, R-3, L-3, C-3, O-1 -/

theorem test_nsum_blinker : (List.finRange 25).map (nsum 0x0003800#25) =
    [0, 0, 0, 0, 0, 1, 2, 3, 2, 1, 1, 1, 2, 1, 1, 1, 2, 3, 2, 1, 0, 0, 0, 0, 0] := by decide
theorem test_step_blinker : (nextOf (exec .step (showing 0x0003800#25))).map State.world = some 0x0021080#25 := by decide
theorem test_step_wrap_block : (nextOf (exec .step (showing 0x1100011#25))).map State.world = some 0x1100011#25 := by decide
theorem test_rand_low_bits : (nextOf (exec .rand
    (answering ([0x01#8, 0xFE#8, 0x03#8] ++ List.replicate 22 0x00#8) [] [] State.reset))).map State.world =
    some 0x0000005#25 := by decide
theorem test_rand_only_bit_zero : (nextOf (exec .rand
    (answering (List.replicate 25 0xFE#8) [] [] (showing 0x1FFFFFF#25)))).map State.status = some 0x00000001#32 := by decide
theorem test_load_block : (nextOf (step (presenting 0x300018C0#32))).map State.world = some 0x00018C0#25 := by decide
theorem test_load_clear_is_quiescent : (nextOf (exec (.load 0) (showing 0x1FFFFFF#25))).map State.status =
    some 0x00000001#32 := by decide
theorem test_cpl_blinker : (nextOf (exec .cpl (showing 0x0003800#25))).map State.world = some 0x1FFC7FF#25 := by decide
theorem test_cpl_full_is_quiescent : (nextOf (exec .cpl (showing 0x1FFFFFF#25))).map State.quiescent = some true := by
  decide
theorem test_nop_keeps_world : nextOf (exec .nop (showing 0x0003800#25)) = some (showing 0x0003800#25) := by decide

/-! ### LIGHT and SCAN: vectors D-1, D-6, SC-1, SC-4 -/

theorem test_light_on : (nextOf (exec (.light true 2 3) State.reset)).map (fun t => (t.row, t.col)) =
    some (0b00100#5, 0b10111#5) := by decide
theorem test_light_one_index_out : nextOf (exec (.light true 0 5) State.reset) = some State.reset := by decide
theorem test_scan_accepted : (nextOf (exec .scan State.reset)).map (fun t => (t.sstate, t.row, t.col, t.status)) =
    some (.cell 0, 0b00000#5, 0b11111#5, 0x00000003#32) := by decide
theorem test_scan_live_cell : (nextOf (step (scanning 0x0000041#25 (.cell 6)))).map
    (fun t => (t.sstate, t.row, t.col)) = some (.dwell 6, 0b00010#5, 0b11101#5) := by decide
theorem test_scan_dwell_ends : (nextOf (step { scanning 0x0000001#25 (.dwell 0) with
    row := 0b00011#5, col := 0b11100#5 })).map (fun t => (t.sstate, t.row, t.col)) =
    some (.cell 1, 0b00010#5, 0b11101#5) := by decide

/-! ### ILL, hold and reset: vectors E-2, E-11, SC-5, RS-2 -/

theorem test_ill_recorded : (nextOf (step (presenting 0x10000001#32))).map (fun t => (t.illCmd, t.status, t.world)) =
    some (0x10000001#32, 0x00000005#32, 0x0000000#25) := by decide
theorem test_ill_first_kept : (nextOf (step { presenting 0xF0000000#32 with ill := true, illCmd := 0x70000000#32 })).map
    State.illCmd = some 0x70000000#32 := by decide
theorem test_held_while_busy : (nextOf (step { scanning 0x0000041#25 (.cell 1) with
    cmd := 0x10000000#32, cmdValid := true })).map (fun t => (t.world, t.cmdValid)) = some (0x0000041#25, true) := by decide
theorem test_reset_clears_ill : nextOf (step { presenting 0x60000000#32 with
    ill := true, illCmd := 0x10000001#32, rst := true, world := 0x0000041#25 }) = some State.reset := by decide
theorem test_first_command_after_reset : nextOf (step (State.reset.withFetchWord 32 0x4000_0000)) =
    nextOf (exec .cpl { State.reset with cmd := 0x40000000#32 }) := by decide

/-! ### The host: vectors F-1, F-5, P6 and S-1, one action each -/

theorem test_boot_issues_rand : (nextOf (step State.reset)).map (fun t => (t.cmd, t.cmdValid, t.phase)) =
    some (0x20000000#32, true, .boot) := by decide
theorem test_generation_at_eleven : (nextOf (step { showing 0x0003800#25 with point := .f2, tickCount := 11 })).map
    (fun t => (t.cmd, t.cmdValid)) = some (0x10000000#32, true) := by decide
theorem test_no_generation_at_ten : (nextOf (step { showing 0x0003800#25 with point := .f2, tickCount := 10 })).map
    (fun t => (t.cmdValid, t.phase)) = some (false, .f3) := by decide
theorem test_stagnation_at_fifty_one : (nextOf (step { showing 0x00018C0#25 with
    point := .f2Stepped, prev := 0x00018C0#25, sameBoardCount := 50 })).map
    (fun t => (t.sameBoardCount, t.cmd, t.cmdValid, t.serial)) =
    some (51, 0x20000000#32, true, [0x1B#8, 0x63#8]) := by decide
theorem test_snapshot_copied : (nextOf (step { showing 0x0021080#25 with point := .f2Stepped, sameBoardCount := 7 })).map
    (fun t => (t.prev, t.sameBoardCount, t.cmdValid)) = some (0x0021080#25, 0, false) := by decide
theorem test_press_a : (nextOf (step (answering [] [false] [] { showing 0 with point := .f3 }))).map State.point =
    some .f3Delay := by decide
theorem test_release_a : (nextOf (step (answering [] [true] [] { showing 0 with point := .f4, aIgnore := true }))).map
    State.aIgnore = some false := by decide
theorem test_b_not_sampled : (nextOf (step (answering [] [] [false] { showing 0 with point := .f5, bIgnore := true }))).map
    (fun t => (t.phase, t.env.levelB.taken)) = some (.f6, 0) := by decide
theorem test_cooldown_ends_at_hundred : (nextOf (step { showing 0 with
    point := .f6, bIgnore := true, bIgnoreCount := 100 })).map (fun t => (t.bIgnore, t.bIgnoreCount)) =
    some (false, 0) := by decide
theorem test_rendering : renderRows 0x0021080#25 =
    [0x2E, 0x2E, 0x2E, 0x2E, 0x2E, 0x0A, 0x0D, 0x2E, 0x2E, 0x58, 0x2E, 0x2E, 0x0A, 0x0D, 0x2E, 0x2E, 0x58, 0x2E, 0x2E,
     0x0A, 0x0D, 0x2E, 0x2E, 0x58, 0x2E, 0x2E, 0x0A, 0x0D, 0x2E, 0x2E, 0x2E, 0x2E, 0x2E, 0x0A, 0x0D] := by decide
theorem test_dropped_byte : (emit [0x1B#8, 0x63#8, 0x2E#8] { State.reset with
    env := { Env.unset with serialOk := ⟨[true, true, false], 0⟩ } }).serial = [0x1B#8, 0x63#8] := by decide
theorem test_placement : (interleave { showing 0 with
    outbox := [0x58#8, 0x2E#8, 0x0A#8], env := { Env.unset with burst := ⟨[2], 0⟩ } }).serial = [0x58#8, 0x2E#8] := by decide

/-! ### Witnesses: each statement's hypotheses are met together; a witness per clause at a boundary -/

/-- ReservedWordRaisesIll: the first and the last reserved opcode. -/
theorem witness_reserved_opcode : [0x70000000#32, 0xFFFFFFFF#32].all (fun w => !(presenting w).rst &&
    !(presenting w).busy && (presenting w).cmdValid && decide (reservedOpcodeWord (presenting w).cmd)) = true := by decide

/-- ReservedWordRaisesIll: the outermost reserved bits of each format. -/
theorem witness_reserved_bit : [0x00000001#32, 0x68000000#32, 0x32000000#32, 0x38000000#32, 0x50000008#32, 0x50000080#32,
    0x54000000#32].all (fun w => decide (reservedBitWord (presenting w).cmd) &&
      !decide (reservedOpcodeWord (presenting w).cmd)) = true := by decide

/-- PseudoInstructionsExpand. -/
theorem witness_grid : gridOk (List.replicate 5 "X...X".toList) = true := by decide

/-- NeighbourSumCountsLiveNeighbours: a neighbour through both wraps. -/
theorem witness_wrap_neighbour : torusNeighbour (0, 0) (4, 4) ∧ cellAt 0x1000000#25 4 4 = true := by decide

/-- StepAdvancesOneGeneration: a word of opcode 1 that is no STEP, and the three corner worlds. -/
theorem witness_step : (0x18000000#32 : Cmd).extractLsb' 28 4 = 1#4 ∧ (0x18000000#32 : Cmd) ≠ 0x10000000#32 ∧
    (showing 0).world = 0 ∧ (showing 0x1FFFFFF#25).world = 0x1FFFFFF#25 ∧ (showing 0x0003800#25).world = 0x0003800#25 := by
  decide

/-- StepLawsHold: a quiescent world, and live cells with one and with eight live neighbours. -/
theorem witness_step_laws : (showing 0).quiescent = true ∧
    cellAt 0x0003000#25 2 2 = true ∧ liveNeighbours 0x0003000#25 (2, 2) < 2 ∧
    cellAt 0x1FFFFFF#25 2 2 = true ∧ 3 < liveNeighbours 0x1FFFFFF#25 (2, 2) := by decide

/-- LoadWritesTheWorld: a legal word with every data bit set, and a word with only bit 25 of its reserved bits set. -/
theorem witness_load : (0x31FFFFFF#32 : Cmd).extractLsb' 28 4 = 3#4 ∧ (0x31FFFFFF#32 : Cmd).extractLsb' 25 3 = 0#3 ∧
    (presenting 0x32000000#32).cmd.extractLsb' 28 4 = 3#4 ∧ (presenting 0x32000000#32).cmd.extractLsb' 25 3 ≠ 0#3 ∧
    (presenting 0x32000000#32).cmdValid = true ∧ (presenting 0x32000000#32).rst = false ∧
    (presenting 0x32000000#32).busy = false := by decide

/-- NopChangesNothing: opcode 0 with bit 0, and with bit 27, set. -/
theorem witness_nop : [0x00000001#32, 0x08000000#32].all (fun w => (presenting w).cmd.extractLsb' 28 4 == 0#4 &&
    (presenting w).cmd.extractLsb' 0 28 != 0#28 && (presenting w).cmdValid && !(presenting w).rst &&
    !(presenting w).busy) = true := by decide

/-- ComplementFlipsEveryCell: the three corner worlds. -/
theorem witness_cpl : (showing 0x1FFFFFF#25).world = 0x1FFFFFF#25 ∧ (showing 0).world = 0 ∧
    (showing 0x0003800#25).world = 0x0003800#25 := by decide

/-- IllIsStickyAndKeepsFirstWord: ILL set by a step from clear, kept by a step, cleared by a reset step, left clear. -/
theorem witness_ill :
    (nextOf (step (presenting 0x70000000#32))).map State.ill = some true ∧ (presenting 0x70000000#32).ill = false ∧
    (nextOf (step { presenting 0#32 with ill := true })).map State.ill = some true ∧
    (nextOf (step { presenting 0#32 with ill := true, rst := true })).map State.ill = some false ∧
    (nextOf (step (presenting 0#32))).map State.ill = some false := by decide

/-- OnlyFourCommandsWriteTheWorld: a step that changes the world. -/
theorem witness_world_written : (nextOf (step (presenting 0x40000000#32))).map State.world = some 0x1FFFFFF#25 := by decide

/-- OnlyLightAndScanDriveLines: steps that change a line, by LIGHT and by SCAN. -/
theorem witness_lines_driven : (nextOf (step (presenting 0x58000044#32))).map State.row = some 0b10000#5 ∧
    (nextOf (step (scanning 1 (.cell 0)))).map State.row = some 0b00001#5 := by decide

/-- LightDrivesOneLinePair: the last line and the first index out of range, on each side; idle reliable lines; an LED lit
beside the one named; words of opcode 5, legal and not. -/
theorem witness_light : (4#3 : BitVec 3).toNat < 5 ∧ 5 ≤ (5#3 : BitVec 3).toNat ∧
    (showing 0).params.lineWriteMayFail = false ∧ (showing 0).linesIdle = true ∧
    (({ showing 0 with row := 0b00010#5 } : State).row.getLsbD 1 = true) ∧
    (0x58000023#32 : Cmd).extractLsb' 28 4 = 5#4 ∧ (0x50000008#32 : Cmd).extractLsb' 28 4 = 5#4 := by decide

/-- FailingLineWritesLoseOneLine. -/
theorem witness_failing_lines : ({ State.reset with params := ⟨true, false⟩ } : State).params.lineWriteMayFail = true ∧
    (0#3 : BitVec 3).toNat < 5 ∧ (4#3 : BitVec 3).toNat < 5 := by decide

/-- LitSetIsAProduct: two LEDs lit. -/
theorem witness_two_lit : ({ State.reset with row := 0b00011#5, col := 0b11100#5 } : State).lit 0 0 = true ∧
    ({ State.reset with row := 0b00011#5, col := 0b11100#5 } : State).lit 1 1 = true := by decide

/-- SequencerCellAndDwellSteps: live and dead cell, dwell, and the last cell. -/
theorem witness_sequencer : ∀ v ∈ [ScanState.cell 0, .cell 1, .dwell 0, .dwell 24, .cell 24],
    (scanning 1 v).rst = false ∧ (scanning 1 v).params.lineWriteMayFail = false ∧ (scanning 1 v).outbox = [] ∧
    (scanning 1 v).sstate = v := by decide

/-- ScanTakesTwentySixPlusLiveSteps and ScanEndsWithIdleLines. -/
theorem witness_scan_presented : (presenting 0x60000000#32).rst = false ∧ (presenting 0x60000000#32).busy = false ∧
    (presenting 0x60000000#32).cmdValid = true ∧ (presenting 0x60000000#32).cmd = encode .scan ∧
    (presenting 0x60000000#32).params.lineWriteMayFail = false := by decide

/-- SweepIsItsLightSequence and PaintShowsExactlyTheLiveCells: the first step and the last of the sweep. -/
theorem witness_sweep : (scanning 0x0000041#25 (.cell 0)).sstate = .cell 0 ∧
    (scanning 0x0000041#25 (.cell 0)).linesIdle = true ∧
    (scanning 0x0000041#25 (.cell 0)).params.lineWriteMayFail = false ∧
    (lightSequence (scanning 0x0000041#25 (.cell 0)).world).length = 27 := by decide

/-- OneLedAtATime: an idle block with a SCAN presented, and a dwelling LED. -/
theorem witness_one_led : linesFollowScan (presenting 0x60000000#32) = true ∧
    decode (presenting 0x60000000#32).cmd = .command .scan ∧
    linesFollowScan { scanning 1 (.dwell 0) with row := 0b00001#5, col := 0b11110#5 } = true := by decide

/-- StepRunsTheDecodedCommand. -/
theorem witness_accept : (presenting 0x10000000#32).rst = false ∧ (presenting 0x10000000#32).busy = false ∧
    (presenting 0x10000000#32).cmdValid = true ∧ decode (presenting 0x10000000#32).cmd = .command .step := by decide

/-- CommandIsHeldWhileBusy. -/
theorem witness_held : (scanning 1 (.cell 0)).rst = false ∧ (scanning 1 (.cell 0)).busy = true := by decide

/-- CommandFrames: a command that completes. -/
theorem witness_command_completes : (nextOf (exec (.light true 1 1) State.reset)).isSome = true := by decide

/-- ParametersAreNeverWritten: a step that completes. -/
theorem witness_step_completes : (nextOf (step State.reset)).isSome = true := by decide

/-- ResetEvent. -/
theorem witness_rst : ({ scanning 1 (.cell 0) with rst := true } : State).rst = true := by decide

/-- EveryStepKeepsHostRanges: a state at the top of the ranges, whose step completes. -/
theorem witness_host_ranges : HostRanges { State.reset with
      point := .f2, tickCount := 11, bIgnore := true, bIgnoreCount := 100 } ∧
    (nextOf (step { State.reset with point := .f2, tickCount := 11, bIgnore := true, bIgnoreCount := 100 })).isSome =
      true := by decide

/-- EveryStepKeepsFrameRun: inside F7, an LED on and row bytes left to write; and with a command presented. -/
theorem witness_frame_run : FrameRun { scanning 1 (.dwell 0) with
      point := .f7Done, row := 0b00001#5, col := 0b11110#5, outbox := (renderRows 1).drop 30 } ∧
    FrameRun { showing 1 with point := .f2Stepped, cmd := 0x10000000#32, cmdValid := true } := by decide

/-- GenerationBoundary: both sides of the threshold, and both sides of the stagnation limit for a block. -/
theorem witness_generation : (showing 0x00018C0#25).tickCount ≤ 10 ∧
    10 < ({ showing 0x00018C0#25 with tickCount := 11 } : State).tickCount ∧
    (showing 0x00018C0#25).params.serialMayDrop = false ∧ State.reset.params.serialMayDrop = true ∧ nextWorld 0x00018C0#25 = 0x00018C0#25 := by decide

/-- ButtonARandomizesWhileHeld: A low and A high, with the latch clear and set; at reset no reading is fixed. -/
theorem witness_button_a : ((answering [] [false, true] [] (showing 1)).env.levelA.queued[0]?).getD true = false ∧
    ((answering [] [true] [] (showing 1)).env.levelA.queued[0]?).getD false = true ∧
    State.reset.env.levelA.queued = [] ∧
    (answering [] [true] [] (showing 1)).aIgnore = false ∧
    ({ answering [] [true] [] (showing 1) with aIgnore := true } : State).aIgnore = true ∧
    (answering [] [false, true] [] (showing 1)).params.serialMayDrop = false := by decide

/-- ButtonBComplementsOnce: B low and B high with both latches clear, and each latch set; at reset no reading is fixed. -/
theorem witness_button_b : ((answering [] [] [false] (showing 1)).env.levelB.queued[0]?).getD true = false ∧
    ((answering [] [] [true] (showing 1)).env.levelB.queued[0]?).getD false = true ∧
    State.reset.env.levelB.queued = [] ∧
    (showing 1).aIgnore = false ∧ (showing 1).bIgnore = false ∧ (showing 1).params.serialMayDrop = false ∧
    ({ showing 1 with aIgnore := true } : State).aIgnore = true ∧
    ({ showing 1 with bIgnore := true } : State).bIgnore = true := by decide

/-- CooldownStep: below the bound, at the bound, and with the latch clear. -/
theorem witness_cooldown : (({ showing 1 with bIgnore := true, bIgnoreCount := 99 } : State).bIgnoreCount < 100) ∧
    100 ≤ ({ showing 1 with bIgnore := true, bIgnoreCount := 100 } : State).bIgnoreCount ∧
    (showing 1).bIgnore = false := by decide

/-- PaintStep and PlacementKeepsTheStream: reliable lines, with and without dropped bytes. -/
theorem witness_paint : (showing 1).params.lineWriteMayFail = false ∧ (showing 1).params.serialMayDrop = false ∧
    State.reset.params.lineWriteMayFail = false ∧ State.reset.params.serialMayDrop = true := by decide

/-- SerialIsBestEffort: both values of the parameter. -/
theorem witness_serial : (showing 1).params.serialMayDrop = false ∧ State.reset.params.serialMayDrop = true := by decide

/-- BootIsOneRand. -/
theorem witness_boot : State.reset.rst = false ∧ State.reset.busy = false ∧ State.reset.cmdValid = false ∧
    State.reset.driver = .frameController ∧ State.reset.point = .boot := by decide

/-- StepsRefineTheWholeFrame. -/
theorem witness_frame_start : FrameStart { showing 0x0003800#25 with point := .f1 } := by decide

/-- GenerationEveryEleventhFrame. -/
theorem witness_tick_zero : (showing 1).tickCount = 0 := by decide

/-- ButtonBCooldownTiming: the state at the end of a frame whose F5 complemented, and a frame that does complement. -/
theorem witness_cooldown_timing : ({ showing 1 with bIgnore := true, bIgnoreCount := 1 } : State).bIgnoreCount = 1 ∧
    (cooldown (frameF5 (answering [] [] [false] (showing 1)))).bIgnore = true ∧
    (answering [] [] [false] (showing 1)).bIgnoreCount = 0 := by decide

/-- StagnationCountsEqualBoundaries: buttons up, below the boundary and at it, on both sides of the limit. -/
theorem witness_stagnation :
    ∀ count ∈ [49, 50], ∀ ticks ∈ [9, 10],
      let s : State := answering [] [true] [true]
        { showing 0x00018C0#25 with prev := 0x00018C0#25, tickCount := ticks, sameBoardCount := count }
      s.aIgnore = false ∧ (pressedA s).1 = false ∧ (sampleB s).1 = false ∧ nextWorld s.world = s.world ∧
        s.prev = s.world := by decide

/-- SerialStreamOfAFrame: no cause (B not sampled, its latch set), and all three: a generation, A seen low and then high,
and B low. -/
theorem witness_serial_stream : (showing 1).params.serialMayDrop = false ∧ (showing 1).updateSerial = false ∧
    (let s : State := answering [] [true] [] { showing 1 with bIgnore := true, bIgnoreCount := 1 }
     ¬10 ≤ s.tickCount ∧ (pressedA s).1 = false ∧ (sampleB (releaseA (frameF3 (frameF2 (tick s))))).1 = false) ∧
    (let s : State := answering (List.replicate 25 1#8) [false, true] [false] { showing 1 with tickCount := 10 }
     10 ≤ s.tickCount ∧ (pressedA s).1 = true ∧ (sampleB (releaseA (frameF3 (frameF2 (tick s))))).1 = true) := by decide

end Sys2Proof.Tests
end

section
/-! Scope (00_scope.md): each kind of turn keeps the OPEN parameters (R7; log entry 2). -/

namespace Sys2Proof.Machine

@[simp] theorem applyReset_params (s : State) : (applyReset s).params = s.params := rfl

@[simp] theorem scanTurn_params (s : State) : (scanTurn s).params = s.params := by
  obtain ⟨_, _, _, _, _, _, hframe⟩ := scanTurn_frame s
  rw [hframe]

@[simp] theorem afterInstr_params (i : Instr) (s : State) : (afterInstr i s).params = s.params := by
  obtain ⟨_, _, _, _, _, hframe⟩ := afterInstr_frame i s
  rw [hframe]

@[simp] theorem driverStep_params (s : State) : (driverStep s).params = s.params := by
  obtain ⟨-, -, -, -, -, -, -, hparams⟩ := driverStep_block s
  exact hparams

/-- Settles O37: whoever's turn it is, the step leaves the parameters as they were. -/
theorem parametersAreNeverWritten : Obligations.ParametersAreNeverWritten := by
  intro s t hstep
  have of_next {u : State} (hnext : step s = .next u) (hu : u.params = s.params) : t.params = s.params := by
    obtain rfl := Host.Outcome.next.inj (hnext.symm.trans hstep)
    exact hu
  obtain ⟨-, hreset⟩ | ⟨-, -, hscan⟩ | ⟨-, -, -, ⟨i, -, hcommand⟩ | ⟨_, -, hillegal⟩⟩ | ⟨-, -, -, hdriver⟩ :=
    step_cases s
  · exact of_next hreset (applyReset_params s)
  · exact of_next hscan (scanTurn_params s)
  · exact of_next hcommand (afterInstr_params i (takeCommand s))
  · exact of_next hillegal (raiseIll_params s.cmd (takeCommand s))
  · exact of_next hdriver (driverStep_params s)

end Sys2Proof.Machine
end

section
/-! State (10_state.md): what a completed step was, and what each kind of step keeps of the world, the lines, the fault
registers and the host's counters. -/

namespace Sys2Proof.Machine

/-! ### Inversion of a completed step -/

/-- What the state after a step is, by whose turn it was (R6, R61): `step_cases` for a step whose outcome is known. -/
theorem step_next_cases {s t : State} (hstep : step s = .next t) :
    (s.rst = true ∧ t = applyReset s) ∨
    (s.rst = false ∧ s.busy = true ∧ t = scanTurn s) ∨
    (s.rst = false ∧ s.busy = false ∧ s.cmdValid = true ∧
      ∃ i, decode s.cmd = .command i ∧ t = afterInstr i (takeCommand s)) ∨
    (s.rst = false ∧ s.busy = false ∧ s.cmdValid = true ∧
      ∃ why, decode s.cmd = .illegal why ∧ t = raiseIll s.cmd (takeCommand s)) ∨
    (s.rst = false ∧ s.busy = false ∧ s.cmdValid = false ∧ t = driverStep s) := by
  have of_next {u : State} (hnext : step s = .next u) : t = u := Host.Outcome.next.inj (hstep.symm.trans hnext)
  obtain ⟨hrst, h⟩ | ⟨hrst, hbusy, h⟩ | ⟨hrst, hbusy, hvalid, ⟨i, hdec, h⟩ | ⟨why, hdec, h⟩⟩ |
    ⟨hrst, hbusy, hvalid, h⟩ := step_cases s
  · exact .inl ⟨hrst, of_next h⟩
  · exact .inr (.inl ⟨hrst, hbusy, of_next h⟩)
  · exact .inr (.inr (.inl ⟨hrst, hbusy, hvalid, i, hdec, of_next h⟩))
  · exact .inr (.inr (.inr (.inl ⟨hrst, hbusy, hvalid, why, hdec, of_next h⟩)))
  · exact .inr (.inr (.inr (.inr ⟨hrst, hbusy, hvalid, of_next h⟩)))

/-- The step with `rst` asserted (R250). -/
theorem step_of_rst {s : State} (hrst : s.rst = true) : step s = .next (applyReset s) := by
  simp only [step, turn_reset.2 hrst]

/-! ### The host's counters (R34, R38) -/

/-- What `HostRanges` reads of a state besides the frame phase: `tick_count`, `b_ignore_count` and `b_ignore`. -/
def hostCounters (s : State) : Nat × Nat × Bool := (s.tickCount, s.bIgnoreCount, s.bIgnore)

@[simp] theorem hostCounters_goTo (p : FramePoint) (s : State) : hostCounters (goTo p s) = hostCounters s := rfl

@[simp] theorem hostCounters_present (w : Cmd) (s : State) : hostCounters (present w s) = hostCounters s := rfl

@[simp] theorem hostCounters_fillOutbox (s : State) : hostCounters (fillOutbox s) = hostCounters s := rfl

@[simp] theorem hostCounters_pressedA (s : State) : hostCounters (pressedA s).2 = hostCounters s := rfl

@[simp] theorem hostCounters_sampleB (s : State) : hostCounters (sampleB s).2 = hostCounters s := by
  obtain ⟨_, _, hsample, -⟩ := sampleB_cases s
  rw [hsample]; rfl

@[simp] theorem hostCounters_releaseA (s : State) : hostCounters (releaseA s) = hostCounters s := by
  obtain ⟨_, _, hrelease, -⟩ := releaseA_cases s
  rw [hrelease]; rfl

@[simp] theorem hostCounters_afterGeneration (s : State) : hostCounters (afterGeneration s) = hostCounters s := by
  obtain ⟨_, _, hafter, -⟩ := afterGeneration_cases s
  rw [hafter]; rfl

@[simp] theorem hostCounters_afterPressA (s : State) : hostCounters (afterPressA s) = hostCounters s := by
  obtain ⟨_, _, hafter, -⟩ := afterPressA_cases s
  rw [hafter]; rfl

/-- Of the three, F5's press touches the latch alone (R176). -/
@[simp] theorem hostCounters_afterPressB (s : State) :
    hostCounters (afterPressB s) = (s.tickCount, s.bIgnoreCount, true) := by
  obtain ⟨_, _, hafter, -⟩ := afterPressB_cases s
  rw [hafter]; rfl

@[simp] theorem hostCounters_finishPaint (s : State) : hostCounters (finishPaint s) = hostCounters s := by
  obtain ⟨_, _, hpaint, -⟩ := finishPaint_cases s
  rw [hpaint]; rfl

/-- The ranges of a state whose three counters are known. -/
theorem hostRanges_iff_of_hostCounters {s : State} {ticks count : Nat} {latch : Bool}
    (hcounters : hostCounters s = (ticks, count, latch)) : HostRanges s ↔
      ticks ≤ 11 ∧ (s.phase ≠ .f2 → ticks ≤ 10) ∧ count ≤ 100 ∧ (latch = false → count = 0) ∧
      (latch = true → s.phase ≠ .f6 → 1 ≤ count) := by
  simp only [hostCounters, Prod.mk.injEq] at hcounters
  obtain ⟨rfl, rfl, rfl⟩ := hcounters
  exact Iff.rfl

/-- The ranges pass to a state with the same counters, unless it leaves F2, where the tick may be 11, or F6, where a set
latch may have the count 0. -/
theorem hostRanges_of_hostCounters_eq {s t : State} (h : HostRanges s) (hcounters : hostCounters t = hostCounters s)
    (hF2 : s.phase = .f2 → t.phase = .f2) (hF6 : s.phase = .f6 → t.phase = .f6) : HostRanges t := by
  obtain ⟨tick_le, tick_le_of_ne_f2, count_le, count_zero, count_pos⟩ := h
  exact (hostRanges_iff_of_hostCounters hcounters).2 ⟨tick_le, fun hne => tick_le_of_ne_f2 (mt hF2 hne), count_le,
    count_zero, fun hset hne => count_pos hset (mt hF6 hne)⟩

theorem applyReset_hostRanges (s : State) : HostRanges (applyReset s) := by
  simp [HostRanges, applyReset, State.reset]

/-- A step of the busy machine touches neither the counters nor the point. -/
theorem scanTurn_hostRanges {s : State} (h : HostRanges s) : HostRanges (scanTurn s) := by
  obtain ⟨_, _, _, _, _, _, hframe⟩ := scanTurn_frame s
  rw [hframe]; exact h

/-- No command touches the counters or the point. -/
theorem afterInstr_hostRanges {i : Instr} {s : State} (h : HostRanges s) : HostRanges (afterInstr i s) := by
  obtain ⟨_, _, _, _, _, hframe⟩ := afterInstr_frame i s
  rw [hframe]; exact h

/-- F6 counts a set latch up to 100, and then clears latch and count (R177). -/
theorem cooldown_cases (s : State) :
    (s.bIgnore = true ∧ s.bIgnoreCount < 100 ∧
      hostCounters (cooldown s) = (s.tickCount, s.bIgnoreCount + 1, s.bIgnore)) ∨
    (¬(s.bIgnore = true ∧ s.bIgnoreCount < 100) ∧ hostCounters (cooldown s) = (s.tickCount, 0, false)) := by
  unfold cooldown
  split
  · next hbelow => exact .inl ⟨hbelow.1, hbelow.2, rfl⟩
  · next hdone => exact .inr ⟨hdone, rfl⟩

/-- F1's tick: from at most 10 to at most 11, entering F2 (R172). -/
theorem hostRanges_goTo_tick {s : State} (h : HostRanges s) (hF2 : s.phase ≠ .f2) (hF6 : s.phase ≠ .f6) :
    HostRanges (goTo .f2 (tick s)) := by
  obtain ⟨-, tick_le_of_ne_f2, count_le, count_zero, count_pos⟩ := h
  have htick : s.tickCount ≤ 10 := tick_le_of_ne_f2 hF2
  exact ⟨Nat.succ_le_succ htick, fun hne => absurd rfl hne, count_le, count_zero, fun hset _ => count_pos hset hF6⟩

/-- F2 is left with the tick as it is only where no generation is due, so at most 10 (R173). -/
theorem hostRanges_goTo_of_not_due {s : State} (h : HostRanges s) (hdue : generationDue s = false)
    (hF6 : s.phase ≠ .f6) :
    HostRanges (goTo .f3 s) := by
  obtain ⟨tick_le, -, count_le, count_zero, count_pos⟩ := h
  have htick : s.tickCount ≤ 10 := Nat.not_lt.1 (of_decide_eq_false hdue)
  exact ⟨tick_le, fun _ => htick, count_le, count_zero, fun hset _ => count_pos hset hF6⟩

/-- The end of a generation: the tick starts again at 0 (R173). -/
theorem hostRanges_goTo_resetTick {s : State} (h : HostRanges s) (hF6 : s.phase ≠ .f6) :
    HostRanges (goTo .f3 (resetTick s)) := by
  obtain ⟨-, -, count_le, count_zero, count_pos⟩ := h
  exact ⟨Nat.zero_le 11, fun _ => Nat.zero_le 10, count_le, count_zero, fun hset _ => count_pos hset hF6⟩

/-- F5's press sets the latch and leads to F6, where its count may still be 0 (R176). -/
theorem hostRanges_goTo_afterPressB {s : State} (h : HostRanges s) (hF2 : s.phase ≠ .f2) :
    HostRanges (goTo .f6 (afterPressB s)) := by
  obtain ⟨tick_le, tick_le_of_ne_f2, count_le, -, -⟩ := h
  exact (hostRanges_iff_of_hostCounters ((hostCounters_goTo .f6 _).trans (hostCounters_afterPressB s))).2
    ⟨tick_le, fun _ => tick_le_of_ne_f2 hF2, count_le, by simp, fun _ hF6 => absurd rfl hF6⟩

/-- F6 counts below the bound only, so a set latch leaves it with a count from 1 to 100 (R177). -/
theorem hostRanges_goTo_cooldown {s : State} (h : HostRanges s) (hF2 : s.phase ≠ .f2) :
    HostRanges (goTo .f7 (cooldown s)) := by
  obtain ⟨tick_le, tick_le_of_ne_f2, -, -, -⟩ := h
  have htick : s.tickCount ≤ 10 := tick_le_of_ne_f2 hF2
  obtain ⟨hset, hlt, hcooldown⟩ | ⟨-, hcooldown⟩ := cooldown_cases s
  · exact (hostRanges_iff_of_hostCounters ((hostCounters_goTo .f7 _).trans hcooldown)).2
      ⟨tick_le, fun _ => htick, hlt, by simp [hset], by simp⟩
  · exact (hostRanges_iff_of_hostCounters ((hostCounters_goTo .f7 _).trans hcooldown)).2
      ⟨tick_le, fun _ => htick, by simp, by simp, by simp⟩

/-- Every host action keeps the ranges. Only F1, the end of F2, F5's press and F6 touch a counter; of the other actions
only F2's test may leave F2, and none leaves F6. -/
theorem hostStep_hostRanges {s : State} (h : HostRanges s) : HostRanges (hostStep s) := by
  unfold hostStep
  cases hpoint : s.point with
  | f1 => exact hostRanges_goTo_tick h (by simp [State.phase, hpoint]) (by simp [State.phase, hpoint])
  | f2 =>
    cases hdue : generationDue s with
    | true => exact hostRanges_of_hostCounters_eq h rfl (fun _ => rfl) (by simp [State.phase, hpoint])
    | false => exact hostRanges_goTo_of_not_due h hdue (by simp [State.phase, hpoint])
  | f2Stepped =>
    exact hostRanges_of_hostCounters_eq h (by simp [apply_ite hostCounters]) (fun _ => rfl)
      (by simp [State.phase, hpoint])
  | f2Done => exact hostRanges_goTo_resetTick h (by simp [State.phase, hpoint])
  | f5Done => exact hostRanges_goTo_afterPressB h (by simp [State.phase, hpoint])
  | f6 => exact hostRanges_goTo_cooldown h (by simp [State.phase, hpoint])
  | boot | bootDone | f3 | f3Delay | f3Issue | f3Done | f4 | f5 | f5Delay | f5Issue | f7 | f7Done =>
    exact hostRanges_of_hostCounters_eq h (by simp) (by simp [State.phase, hpoint]) (by simp [State.phase, hpoint])

theorem driverStep_hostRanges {s : State} (h : HostRanges s) : HostRanges (driverStep s) := by
  unfold driverStep
  split
  · exact hostStep_hostRanges h
  · exact h
  · exact h

/-- Settles O40: whoever's turn it is, the ranges hold after the step. Only the frame controller moves the counters. -/
theorem everyStepKeepsHostRanges : Obligations.EveryStepKeepsHostRanges := by
  intro s t h hstep
  obtain ⟨-, rfl⟩ | ⟨-, -, rfl⟩ | ⟨-, -, -, i, -, rfl⟩ | ⟨-, -, -, _, -, rfl⟩ | ⟨-, -, -, rfl⟩ := step_next_cases hstep
  · exact applyReset_hostRanges s
  · exact scanTurn_hostRanges h
  · exact afterInstr_hostRanges (s := takeCommand s) h
  · exact h
  · exact driverStep_hostRanges h

/-! ### The fault registers (R29) -/

@[simp] theorem scanTurn_ill (s : State) : (scanTurn s).ill = s.ill := by
  obtain ⟨_, _, _, _, _, _, hframe⟩ := scanTurn_frame s
  rw [hframe]

@[simp] theorem scanTurn_illCmd (s : State) : (scanTurn s).illCmd = s.illCmd := by
  obtain ⟨_, _, _, _, _, _, hframe⟩ := scanTurn_frame s
  rw [hframe]

@[simp] theorem afterInstr_ill (i : Instr) (s : State) : (afterInstr i s).ill = s.ill := by
  obtain ⟨_, _, _, _, _, hframe⟩ := afterInstr_frame i s
  rw [hframe]

@[simp] theorem afterInstr_illCmd (i : Instr) (s : State) : (afterInstr i s).illCmd = s.illCmd := by
  obtain ⟨_, _, _, _, _, hframe⟩ := afterInstr_frame i s
  rw [hframe]

/-- What a step without reset does to ILL and ILL_CMD: it keeps both, or it accepts an illegal word, which sets ILL
and is recorded where ILL was clear (R29, R221). -/
theorem step_ill_cases {s t : State} (hstep : step s = .next t) (hrst : s.rst = false) :
    (t.ill = s.ill ∧ t.illCmd = s.illCmd) ∨
    (s.cmdValid = true ∧ s.busy = false ∧ (∃ why, decode s.cmd = .illegal why) ∧
      t.ill = true ∧ t.illCmd = if s.ill then s.illCmd else s.cmd) := by
  obtain ⟨hreset, -⟩ | ⟨-, -, rfl⟩ | ⟨-, -, -, i, -, rfl⟩ | ⟨-, hbusy, hvalid, why, hdec, rfl⟩ | ⟨-, -, -, rfl⟩ :=
    step_next_cases hstep
  · exact absurd hreset (by simp [hrst])
  · exact .inl ⟨scanTurn_ill s, scanTurn_illCmd s⟩
  · exact .inl ⟨afterInstr_ill i _, afterInstr_illCmd i _⟩
  · exact .inr ⟨hvalid, hbusy, ⟨why, hdec⟩, rfl, rfl⟩
  · obtain ⟨-, -, -, hill, hillCmd, -, -, -⟩ := driverStep_block s
    exact .inl ⟨hill, hillCmd⟩

/-- Settles O20, from what a step does to the two fault registers. -/
theorem illIsStickyAndKeepsFirstWord : Obligations.IllIsStickyAndKeepsFirstWord := by
  refine ⟨fun s t hstep => ⟨fun hrst => ?_, fun hrst hset => ?_, fun hrst hclear hraised => ?_, fun hrst hclear => ?_⟩,
    rfl, rfl⟩
  · obtain rfl : applyReset s = t := Host.Outcome.next.inj ((step_of_rst hrst).symm.trans hstep)
    exact ⟨rfl, rfl⟩
  · obtain ⟨hill, hillCmd⟩ | ⟨-, -, -, hill, hillCmd⟩ := step_ill_cases hstep hrst
    · exact ⟨hill.trans hset, hillCmd⟩
    · exact ⟨hill, by simpa [hset] using hillCmd⟩
  · obtain ⟨hill, -⟩ | ⟨hvalid, hbusy, hdec, -, hillCmd⟩ := step_ill_cases hstep hrst
    · simp [hill, hclear] at hraised
    · exact ⟨hvalid, hbusy, hdec, by simpa [hclear] using hillCmd⟩
  · obtain ⟨-, hillCmd⟩ | ⟨-, -, -, hill, -⟩ := step_ill_cases hstep hrst
    · exact hillCmd
    · simp [hill] at hclear

/-! ### What each command keeps (R22, R24, R25, R30) -/

/-- Only a field below 5 names a line (R59, R76). -/
theorem toNat_lt_of_lineOf_eq_some {field : BitVec 3} {line : Fin 5} (h : lineOf field = some line) :
    field.toNat < 5 := by
  unfold lineOf at h
  split at h
  · assumption
  · cases h

/-- LIGHT changes the lines and the source of the line draws, nothing else (R142, R152). -/
theorem lightLines_frame (on : Bool) (row col : BitVec 3) (s : State) : ∃ rows cols src,
    lightLines on row col s = { s with row := rows, col := cols, env := { s.env with lineOk := src } } := by
  unfold lightLines
  split
  · next r c _ _ =>
    obtain ⟨_, _, src, hdrive, -⟩ := driveCell_cases r c on s
    exact ⟨_, _, src, hdrive⟩
  all_goals exact ⟨s.row, s.col, s.env.lineOk, rfl⟩

/-- LIGHT with an index that names no line changes nothing (R143). -/
theorem lightLines_of_out_of_range {on : Bool} {row col : BitVec 3} (s : State)
    (hout : ¬(row.toNat < 5 ∧ col.toNat < 5)) : lightLines on row col s = s := by
  unfold lightLines
  split
  · next hrow hcol => exact absurd ⟨toNat_lt_of_lineOf_eq_some hrow, toNat_lt_of_lineOf_eq_some hcol⟩ hout
  all_goals rfl

/-- Only LIGHT touches the lines or takes a line draw (R24, R25). -/
theorem afterInstr_lines {i : Instr} (s : State) (hlight : ∀ on row col, i ≠ .light on row col) :
    (afterInstr i s).row = s.row ∧ (afterInstr i s).col = s.col ∧ (afterInstr i s).env.lineOk = s.env.lineOk := by
  cases i with
  | light on row col => exact absurd rfl (hlight on row col)
  | rand => simp [afterInstr, randWorld_eq]
  | nop | step | load | cpl | scan => exact ⟨rfl, rfl, rfl⟩

/-- Only SCAN touches the sequencer (R30). -/
theorem afterInstr_sstate {i : Instr} (s : State) (hscan : i ≠ .scan) : (afterInstr i s).sstate = s.sstate := by
  cases i with
  | scan => exact absurd rfl hscan
  | light on row col =>
    obtain ⟨_, _, _, hframe⟩ := lightLines_frame on row col s
    simp [afterInstr, hframe]
  | nop | step | rand | load | cpl => rfl

/-- Only RAND takes random bytes (R106). -/
theorem afterInstr_bytes {i : Instr} (s : State) (hrand : i ≠ .rand) :
    (afterInstr i s).env.bytes = s.env.bytes := by
  cases i with
  | rand => exact absurd rfl hrand
  | light on row col =>
    obtain ⟨_, _, _, hframe⟩ := lightLines_frame on row col s
    simp [afterInstr, hframe]
  | nop | step | load | cpl | scan => rfl

/-- No command takes a draw other than random bytes and line draws. -/
theorem afterInstr_env (i : Instr) (s : State) : (afterInstr i s).env =
    { s.env with bytes := (afterInstr i s).env.bytes, lineOk := (afterInstr i s).env.lineOk } := by
  cases i with
  | light on row col =>
    obtain ⟨_, _, _, hframe⟩ := lightLines_frame on row col s
    simp [afterInstr, hframe]
  | nop | step | rand | load | cpl | scan => rfl

/-- NOP, SCAN and LIGHT keep the world (R22). -/
theorem afterInstr_world {i : Instr} (s : State) (hi : i = .nop ∨ i = .scan ∨ ∃ on row col, i = .light on row col) :
    (afterInstr i s).world = s.world := by
  obtain rfl | rfl | ⟨on, row, col, rfl⟩ := hi
  · rfl
  · rfl
  · obtain ⟨_, _, _, hframe⟩ := lightLines_frame on row col s
    simp [afterInstr, hframe]

/-- Settles O36: every command completes, and each clause is what its effect leaves alone. -/
theorem commandFrames : Obligations.CommandFrames := by
  intro i s t hexec
  obtain rfl : afterInstr i s = t := Host.Outcome.next.inj ((exec_eq i s).symm.trans hexec)
  refine ⟨?_, afterInstr_lines s, afterInstr_sstate s, afterInstr_bytes s, afterInstr_env i s, afterInstr_world s⟩
  obtain ⟨_, _, _, _, _, hframe⟩ := afterInstr_frame i s
  rw [hframe]

/-! ### Who writes the world and the lines (R22, R24, R25) -/

@[simp] theorem scanTurn_world (s : State) : (scanTurn s).world = s.world := by
  obtain ⟨_, _, _, _, _, _, hframe⟩ := scanTurn_frame s
  rw [hframe]

/-- Settles O21: apart from a reset the world changes only in an accepting step, and there not by NOP, SCAN or LIGHT. -/
theorem onlyFourCommandsWriteTheWorld : Obligations.OnlyFourCommandsWriteTheWorld := by
  intro s t hstep hne
  obtain ⟨hrst, -⟩ | ⟨-, -, rfl⟩ | ⟨-, hbusy, hvalid, i, hdec, rfl⟩ | ⟨-, -, -, _, -, rfl⟩ | ⟨-, -, -, rfl⟩ :=
    step_next_cases hstep
  · exact .inl hrst
  · exact absurd (scanTurn_world s) hne
  · refine .inr ⟨hbusy, hvalid, ?_⟩
    cases i with
    | step => exact .inl hdec
    | rand => exact .inr (.inl hdec)
    | load data => exact .inr (.inr (.inl ⟨data, hdec⟩))
    | cpl => exact .inr (.inr (.inr hdec))
    | nop => exact absurd (afterInstr_world (takeCommand s) (.inl rfl)) hne
    | scan => exact absurd (afterInstr_world (takeCommand s) (.inr (.inl rfl))) hne
    | light on row col => exact absurd (afterInstr_world (takeCommand s) (.inr (.inr ⟨on, row, col, rfl⟩))) hne
  · exact absurd rfl hne
  · obtain ⟨hworld, -⟩ := driverStep_block s
    exact absurd hworld hne

/-- Settles O22: apart from a reset and a busy sequencer a line changes only in an accepting step, and there only by a
LIGHT whose indices name lines. -/
theorem onlyLightAndScanDriveLines : Obligations.OnlyLightAndScanDriveLines := by
  intro s t hstep hne
  have absurd_of_kept (hrow : t.row = s.row) (hcol : t.col = s.col) : False := hne.elim (· hrow) (· hcol)
  obtain ⟨hrst, -⟩ | ⟨-, hbusy, -⟩ | ⟨-, -, hvalid, i, hdec, rfl⟩ | ⟨-, -, -, _, -, rfl⟩ | ⟨-, -, -, rfl⟩ :=
    step_next_cases hstep
  · exact .inl hrst
  · exact .inr (.inl hbusy)
  · by_cases hlight : ∃ on row col, i = .light on row col
    · obtain ⟨on, row, col, rfl⟩ := hlight
      refine .inr (.inr ⟨hvalid, on, row, col, hdec, ?_⟩)
      by_contra hout
      have hkept : afterInstr (.light on row col) (takeCommand s) = takeCommand s := lightLines_of_out_of_range _ hout
      exact absurd_of_kept (by rw [hkept]; rfl) (by rw [hkept]; rfl)
    · obtain ⟨hrow, hcol, -⟩ := afterInstr_lines (takeCommand s) fun on row col hi => hlight ⟨on, row, col, hi⟩
      exact (absurd_of_kept hrow hcol).elim
  · exact (absurd_of_kept rfl rfl).elim
  · obtain ⟨-, hrow, hcol, -⟩ := driverStep_block s
    exact (absurd_of_kept hrow hcol).elim

/-! ### QUIESCENT and the STATUS word (R27, R28, R32) -/

/-- A world is 0 iff every cell, named by its row and column, is dead (R51). -/
theorem world_eq_zero_iff (w : World) : w = 0#25 ↔ ∀ r c : Fin 5, cellAt w r c = false := by
  constructor
  · rintro rfl r c
    simp [cellAt]
  · intro hdead
    refine world_ext fun k => ?_
    simpa [cellAt] using hdead (cellRow k) (cellCol k)

theorem quiescent_iff (s : State) : s.quiescent = true ↔ s.world = 0#25 := by simp [State.quiescent]

/-- Settles O18: the world is 0 iff each of its cells is dead. -/
theorem quiescentIffEveryCellDead : Obligations.QuiescentIffEveryCellDead :=
  ⟨fun s => (quiescent_iff s).trans (world_eq_zero_iff s.world), rfl⟩

/-- Bits 31:3 of the status word are always 0 (R32). -/
theorem status_reserved (s : State) {i : Nat} (hi : 3 ≤ i) : s.status.getLsbD i = false := by
  rw [State.status, BitVec.getLsbD_append, BitVec.getLsbD_append, BitVec.getLsbD_append]
  simp [show ¬i < 1 by omega, show ¬i - 1 < 1 by omega, show ¬i - 1 - 1 < 1 by omega]

/-- Settles O19, from the laws of the status word's bits. -/
theorem statusWordLayout : Obligations.StatusWordLayout := by
  refine ⟨fun s => ⟨?_, ?_, status_ill s, fun i hi => status_reserved s hi⟩, by decide, rfl⟩
  · rw [status_quiescent]; exact quiescent_iff s
  · rw [status_busy]; exact busy_iff s

end Sys2Proof.Machine
end

section
/-! Memory (20_memory.md): the row bytes on their way from the outbox to the stream (section 4), and the toroidal
neighbours of a cell (section 1). -/

namespace Sys2Proof.Machine

/-! ### The stream of a sweep (R65, R178, R182) -/

/-- An emission leaves the row bytes still to write alone (R182). -/
@[simp] theorem emit_outbox (bytes : List Byte) (s : State) : (emit bytes s).outbox = s.outbox := by
  obtain ⟨_, _, hframe, -⟩ := emit_cases bytes s
  rw [hframe]

/-- With no byte dropped an emission appends all its bytes to the stream (R182). -/
theorem emit_serial_of_no_drop (bytes : List Byte) {s : State} (hdrop : s.params.serialMayDrop = false) :
    (emit bytes s).serial = s.serial ++ bytes := by
  obtain ⟨_, _, hframe, -, hall⟩ := emit_cases bytes s
  obtain ⟨rfl, -⟩ := hall hdrop
  rw [hframe]

/-- `emit_congr` for the stream alone. -/
theorem emit_serial_congr (bytes : List Byte) {s t : State} (hserial : t.serial = s.serial)
    (hsource : t.env.serialOk = s.env.serialOk) (hdrop : t.params.serialMayDrop = s.params.serialMayDrop) :
    (emit bytes t).serial = (emit bytes s).serial :=
  (emit_congr bytes hserial hsource hdrop).1

/-- Writing out what is left after the interleaved bytes gives the stream of writing out everything: the bytes taken and
the bytes left are, in order, the outbox (R65, R178). -/
theorem emit_outbox_interleave (s : State) :
    (emit (interleave s).outbox (interleave s)).serial = (emit s.outbox s).serial := by
  unfold interleave
  split
  · rfl
  · rw [emit_outbox, ← emit_append]
    simp only [drawBurst, List.take_append_drop]
    exact emit_serial_congr s.outbox rfl rfl rfl

/-- A sequencer step does not touch what an emission of the outbox depends on (R145, R146). -/
theorem emit_outbox_scanStep (s : State) :
    (emit (scanStep s).outbox (scanStep s)).serial = (emit s.outbox s).serial := by
  obtain ⟨_, _, _, _, hframe⟩ := scanStep_frame s
  rw [hframe]
  exact emit_serial_congr s.outbox rfl rfl rfl

/-- A step of the busy machine keeps the stream that writing out the outbox leads to (R65, R178). -/
theorem emit_outbox_scanTurn (s : State) :
    (emit (scanTurn s).outbox (scanTurn s)).serial = (emit s.outbox s).serial :=
  (emit_outbox_scanStep (interleave s)).trans (emit_outbox_interleave s)

/-- Settles O48: the second clause is the first where an emission drops nothing. -/
theorem placementKeepsTheStream : Obligations.PlacementKeepsTheStream := by
  refine fun s => ⟨emit_outbox_scanTurn s, fun hdrop => ?_⟩
  have hdrop' : (scanTurn s).params.serialMayDrop = false := by rw [scanTurn_params]; exact hdrop
  calc (scanTurn s).serial ++ (scanTurn s).outbox
      = (emit (scanTurn s).outbox (scanTurn s)).serial := (emit_serial_of_no_drop _ hdrop').symm
    _ = (emit s.outbox s).serial := emit_outbox_scanTurn s
    _ = s.serial ++ s.outbox := emit_serial_of_no_drop _ hdrop

/-! ### The toroidal neighbours (R52, R53) -/

/-- The offsets of R53 are the pairs of steps -1, 0 and 1 other than no step at all. -/
theorem mem_ringOffsets_iff (dr dc : Int) :
    (dr, dc) ∈ ringOffsets ↔ dr ∈ [-1, 0, 1] ∧ dc ∈ [-1, 0, 1] ∧ ¬(dr = 0 ∧ dc = 0) := by
  simp only [ringOffsets, List.mem_cons, List.not_mem_nil, or_false, Prod.mk.injEq]
  omega

/-- On a ring of five, the places next to `x` or at it are those one step of -1, 0 or 1 leads to. -/
theorem ringClose_iff_mod5 (x y : Fin 5) : ringClose x y ↔ ∃ d ∈ ([-1, 0, 1] : List Int), mod5 (x.val + d) = y.val := by
  decide +revert

/-- A step of -1, 0 or 1 on a ring of five leads back to its start only if it is 0. -/
theorem mod5_step_eq_self_iff (x : Fin 5) : ∀ d ∈ ([-1, 0, 1] : List Int), mod5 (x.val + d) = x.val ↔ d = 0 := by
  decide +revert

theorem mod5_lt (x : Int) : mod5 x < 5 := by unfold mod5; omega

/-- The neighbour at an offset is the cell whose row and whose column that offset leads to (R51, R52). -/
theorem neighbourAt_eq_iff (k j : Fin 25) (dr dc : Int) : neighbourAt k (dr, dc) = j.val ↔
    mod5 ((cellRow k).val + dr) = (cellRow j).val ∧ mod5 ((cellCol k).val + dc) = (cellCol j).val := by
  have hrow := mod5_lt ((cellRow k).val + dr)
  have hcol := mod5_lt ((cellCol k).val + dc)
  have hj : j.val = 5 * (cellRow j).val + (cellCol j).val := (Nat.div_add_mod j.val 5).symm
  have hjcol := (cellCol j).isLt
  simp only [neighbourAt]
  omega

/-- The neighbours of a cell are the 3×3 ring round it: an offset leaves the cell unless both its steps are 0 (R52). -/
theorem mem_neighbours_iff (k j : Fin 25) :
    j.val ∈ neighbours k ↔ torusNeighbour (cellRow k, cellCol k) (cellRow j, cellCol j) := by
  simp only [neighbours, List.mem_map, Prod.exists, mem_ringOffsets_iff, neighbourAt_eq_iff, torusNeighbour,
    ringClose_iff_mod5, ne_eq, Prod.mk.injEq]
  constructor
  · rintro ⟨dr, dc, ⟨hdr, hdc, hne⟩, hr, hc⟩
    refine ⟨fun ⟨hrow, hcol⟩ => hne ⟨?_, ?_⟩, ⟨dr, hdr, hr⟩, ⟨dc, hdc, hc⟩⟩
    · exact (mod5_step_eq_self_iff _ dr hdr).1 (by rw [hr, hrow])
    · exact (mod5_step_eq_self_iff _ dc hdc).1 (by rw [hc, hcol])
  · rintro ⟨hne, ⟨dr, hdr, hr⟩, ⟨dc, hdc, hc⟩⟩
    refine ⟨dr, dc, ⟨hdr, hdc, fun ⟨hdr0, hdc0⟩ => hne ⟨?_, ?_⟩⟩, hr, hc⟩
    · exact Fin.ext (hr.symm.trans ((mod5_step_eq_self_iff _ dr hdr).2 hdr0))
    · exact Fin.ext (hc.symm.trans ((mod5_step_eq_self_iff _ dc hdc).2 hdc0))

theorem neighbours_nodup (k : Fin 25) : (neighbours k).Nodup := by
  decide +revert

@[simp] theorem neighbours_length (k : Fin 25) : (neighbours k).length = 8 := rfl

/-- No cell is in the ring round itself (R52). -/
theorem self_not_mem_neighbours (k : Fin 25) : k.val ∉ neighbours k := by
  rw [mem_neighbours_iff]
  exact fun ⟨hne, _⟩ => hne rfl

/-- Settles O7: the ring by its offsets, and the three lists of R53 by evaluation. -/
theorem neighboursAreTheRing : Obligations.NeighboursAreTheRing :=
  ⟨fun k => ⟨neighbours_nodup k, neighbours_length k, self_not_mem_neighbours k⟩, mem_neighbours_iff,
    by decide, by decide, by decide⟩

end Sys2Proof.Machine
end

section
/-! Encoding (30_encoding.md): the fields of a word, the decoder as the encoder's inverse, the mask and match table, the
illegal words, the step that accepts or holds a word, and the assembler. -/

namespace Sys2Proof.Machine

/-! ### The fields of a word (R70 to R74) -/

theorem opcodeField_toNat (w : Cmd) : (opcodeField w).toNat = (w >>> 28).toNat := by
  have hlt : w.toNat >>> 28 < 2 ^ 4 := by rw [Nat.shiftRight_eq_div_pow]; omega
  simp only [opcodeField, BitVec.extractLsb'_toNat, BitVec.toNat_ushiftRight, Nat.mod_eq_of_lt hlt]

/-- A word is its opcode and the 28 bits below it (R71, R72). -/
theorem formatN_fields (w : Cmd) : opcodeField w ++ w.extractLsb' 0 28 = w :=
  BitVec.extractLsb'_append_extractLsb'

/-- A word is the fields of format L, one after the other (R73). -/
theorem formatL_fields (w : Cmd) : opcodeField w ++ w.extractLsb' 25 3 ++ w.extractLsb' 0 25 = w := by
  rw [opcodeField, BitVec.extractLsb'_append_extractLsb'_eq_extractLsb' (show 28 = 25 + 3 from rfl)]
  exact BitVec.extractLsb'_append_extractLsb'

/-- One bit of a word as a field of width 1. -/
theorem extractLsb'_one_eq_ofBool (w : Cmd) (i : Nat) : w.extractLsb' i 1 = BitVec.ofBool (w.getLsbD i) := by
  ext j hj
  obtain rfl : j = 0 := by omega
  simp

/-- A word is the fields of format D, one after the other (R74). -/
theorem formatD_fields (w : Cmd) : opcodeField w ++ BitVec.ofBool (w.getLsbD 27) ++ w.extractLsb' 7 20 ++
    w.extractLsb' 4 3 ++ BitVec.ofBool (w.getLsbD 3) ++ w.extractLsb' 0 3 = w := by
  rw [← extractLsb'_one_eq_ofBool, ← extractLsb'_one_eq_ofBool, opcodeField,
    BitVec.extractLsb'_append_extractLsb'_eq_extractLsb' (show 28 = 27 + 1 from rfl),
    BitVec.extractLsb'_append_extractLsb'_eq_extractLsb' (show 27 = 7 + 20 from rfl),
    BitVec.extractLsb'_append_extractLsb'_eq_extractLsb' (show 7 = 4 + 3 from rfl),
    BitVec.extractLsb'_append_extractLsb'_eq_extractLsb' (show 4 = 3 + 1 from rfl)]
  exact BitVec.extractLsb'_append_extractLsb'

theorem encode_load_fields (data : BitVec 25) : opcodeField (encode (.load data)) = 3#4 ∧
    (encode (.load data)).extractLsb' 25 3 = 0#3 ∧ (encode (.load data)).extractLsb' 0 25 = data := by
  refine ⟨?_, ?_, BitVec.extractLsb'_append_eq_right⟩
  · exact (BitVec.extractLsb'_append_eq_of_le (by decide)).trans BitVec.extractLsb'_append_eq_left
  · exact (BitVec.extractLsb'_append_eq_of_le (by decide)).trans BitVec.extractLsb'_append_eq_right

theorem encode_light_fields (on : Bool) (row col : BitVec 3) : on = (encode (.light on row col)).getLsbD 27 ∧
    row = (encode (.light on row col)).extractLsb' 4 3 ∧ col = (encode (.light on row col)).extractLsb' 0 3 := by
  decide +revert

/-! ### The decoder is the encoder's inverse (R84) -/

/-- A word of LOAD's opcode with its reserved bits clear is the LOAD of its `DATA` (R73). -/
theorem decode_of_formatL {w : Cmd} (hop : opcodeField w = 3#4) (hzero : w.extractLsb' 25 3 = 0#3) :
    decode w = .command (.load (w.extractLsb' 0 25)) := by
  rw [decode, hop]
  exact if_pos hzero

/-- A word of LIGHT's opcode with its reserved bits clear is the LIGHT of its fields (R74). -/
theorem decode_of_formatD {w : Cmd} (hop : opcodeField w = 5#4) (hzero : w.extractLsb' 7 20 = 0#20)
    (hbit : w.getLsbD 3 = false) :
    decode w = .command (.light (w.getLsbD 27) (w.extractLsb' 4 3) (w.extractLsb' 0 3)) := by
  rw [decode, hop]
  exact if_pos ⟨hzero, hbit⟩

/-- Every command's word decodes to it (R84). -/
@[simp] theorem decode_encode (i : Instr) : decode (encode i) = .command i := by
  cases i with
  | load data =>
    obtain ⟨hop, hzero, hdata⟩ := encode_load_fields data
    rw [decode_of_formatL hop hzero, hdata]
  | light on row col => decide +revert
  | nop | step | rand | cpl | scan => decide

/-- Format N leaves no bit free: the word is the opcode and zeros (R72). -/
theorem encode_of_decodeFormatN {w : Cmd} {i j : Instr} {op : BitVec 4} (hop : opcodeField w = op)
    (hi : encode i = op ++ 0#28) (h : decodeFormatN w i = .command j) : encode j = w := by
  unfold decodeFormatN at h
  split at h
  · next hzero =>
    cases h
    rw [hi, ← hop, ← hzero, formatN_fields]
  · cases h

theorem encode_of_decodeFormatL {w : Cmd} {i : Instr} (hop : opcodeField w = 3#4)
    (h : decodeFormatL w = .command i) : encode i = w := by
  unfold decodeFormatL at h
  split at h
  · next hzero =>
    cases h
    rw [encode, ← hop, ← hzero, formatL_fields]
  · cases h

theorem encode_of_decodeFormatD {w : Cmd} {i : Instr} (hop : opcodeField w = 5#4)
    (h : decodeFormatD w = .command i) : encode i = w := by
  unfold decodeFormatD at h
  split at h
  · next hfixed =>
    obtain ⟨hzero, hbit⟩ := hfixed
    cases h
    rw [encode, ← hop, ← hzero, show (0#1) = BitVec.ofBool (w.getLsbD 3) by rw [hbit]; rfl, formatD_fields]
  · cases h

/-- A word that decodes to a command is that command's word: the format it was read by gives all its bits (R84). -/
theorem encode_of_decode {w : Cmd} {i : Instr} (h : decode w = .command i) : encode i = w := by
  have opcode_eq {n : BitVec 4} (hn : (opcodeField w).toNat = n.toNat) : opcodeField w = n := BitVec.eq_of_toNat_eq hn
  unfold decode at h
  split at h
  · next hop => exact encode_of_decodeFormatN (opcode_eq (n := 0x0#4) hop) rfl h
  · next hop => exact encode_of_decodeFormatN (opcode_eq (n := 0x1#4) hop) rfl h
  · next hop => exact encode_of_decodeFormatN (opcode_eq (n := 0x2#4) hop) rfl h
  · next hop => exact encode_of_decodeFormatL (opcode_eq hop) h
  · next hop => exact encode_of_decodeFormatN (opcode_eq (n := 0x4#4) hop) rfl h
  · next hop => exact encode_of_decodeFormatD (opcode_eq hop) h
  · next hop => exact encode_of_decodeFormatN (opcode_eq (n := 0x6#4) hop) rfl h
  · cases h

theorem decode_eq_command_iff {w : Cmd} {i : Instr} : decode w = .command i ↔ encode i = w :=
  ⟨encode_of_decode, fun h => h ▸ decode_encode i⟩

/-- Settles O1: the two directions of `decode_eq_command_iff`. -/
theorem encodeAndDecodeAreInverse : Obligations.EncodeAndDecodeAreInverse :=
  ⟨fun _ => decode_eq_command_iff.2 rfl, fun _ _ => decode_eq_command_iff.1⟩

/-! ### The mask and match table (R82) -/

theorem selects_iff {row : OpcodeRow} {w : Cmd} : row.selects w = true ↔ w &&& row.mask = row.matchBits :=
  beq_iff_eq

theorem opcodeRowOf_mem (i : Instr) : opcodeRowOf i ∈ opcodeTable := by
  cases i <;> simp [opcodeTable, opcodeRowOf]

/-- Every row of the table is the row of some command. -/
theorem exists_opcodeRowOf_eq {row : OpcodeRow} (hrow : row ∈ opcodeTable) : ∃ i, opcodeRowOf i = row := by
  obtain ⟨i, -, hi⟩ := List.mem_map.1 hrow
  exact ⟨i, hi⟩

/-- The laws of `Sys2Proof.Laws.Opcode`, for every command. -/
theorem selects_encode_iff (i : Instr) {row : OpcodeRow} (hrow : row ∈ opcodeTable) :
    row.selects (encode i) = true ↔ row = opcodeRowOf i := by
  cases i with
  | nop => exact Laws.Opcode.nop row hrow
  | step => exact Laws.Opcode.step row hrow
  | rand => exact Laws.Opcode.rand row hrow
  | load data => exact Laws.Opcode.load data row hrow
  | cpl => exact Laws.Opcode.cpl row hrow
  | light on r c => exact Laws.Opcode.light on r c row hrow
  | scan => exact Laws.Opcode.scan row hrow

/-- A word that decodes to a command is selected by that command's row. -/
theorem selects_of_decode {w : Cmd} {i : Instr} (h : decode w = .command i) : (opcodeRowOf i).selects w = true := by
  rw [← encode_of_decode h]
  exact (selects_encode_iff i (opcodeRowOf_mem i)).2 rfl

/-- A row that fixes every bit selects its command's word alone (R72). -/
theorem decode_of_selects_of_mask_allOnes {w : Cmd} {i : Instr} (hmask : (opcodeRowOf i).mask = BitVec.allOnes 32)
    (hmatch : (opcodeRowOf i).matchBits = encode i) (hsel : (opcodeRowOf i).selects w = true) :
    decode w = .command i := by
  rw [decode_eq_command_iff, ← hmatch, ← selects_iff.1 hsel, hmask, BitVec.and_allOnes]

/-- A field whose every bit a row fixes has the row's value in each word the row selects. -/
theorem extractLsb'_eq_of_selects {row : OpcodeRow} {w : Cmd} {start len : Nat} {value : BitVec len}
    (hsel : row.selects w = true) (hmask : row.mask.extractLsb' start len = BitVec.allOnes len)
    (hmatch : row.matchBits.extractLsb' start len = value) : w.extractLsb' start len = value := by
  rw [← hmatch, ← selects_iff.1 hsel, BitVec.extractLsb'_and, hmask, BitVec.and_allOnes]

/-- A word a command's row selects decodes to a command of that row. -/
theorem decode_of_selects {w : Cmd} {i : Instr} (hsel : (opcodeRowOf i).selects w = true) :
    ∃ j, decode w = .command j ∧ opcodeRowOf j = opcodeRowOf i := by
  cases i with
  | load data =>
    simp only [opcodeRowOf] at hsel
    have hop : opcodeField w = 3#4 := extractLsb'_eq_of_selects hsel (by decide) (by decide)
    have hzero : w.extractLsb' 25 3 = 0#3 := extractLsb'_eq_of_selects hsel (by decide) (by decide)
    exact ⟨_, decode_of_formatL hop hzero, rfl⟩
  | light on row col =>
    simp only [opcodeRowOf] at hsel
    have hop : opcodeField w = 5#4 := extractLsb'_eq_of_selects hsel (by decide) (by decide)
    have hzero : w.extractLsb' 7 20 = 0#20 := extractLsb'_eq_of_selects hsel (by decide) (by decide)
    have hbit : w.extractLsb' 3 1 = 0#1 := extractLsb'_eq_of_selects hsel (by decide) (by decide)
    rw [extractLsb'_one_eq_ofBool] at hbit
    exact ⟨_, decode_of_formatD hop hzero (BitVec.ofBool_eq_iff_eq.1 hbit), rfl⟩
  | nop | step | rand | cpl | scan => exact ⟨_, decode_of_selects_of_mask_allOnes rfl rfl hsel, rfl⟩

/-- The rows do not overlap: a word decodes to one command at most. -/
theorem row_eq_of_selects {w : Cmd} {row row' : OpcodeRow} (hrow : row ∈ opcodeTable) (hrow' : row' ∈ opcodeTable)
    (hsel : row.selects w = true) (hsel' : row'.selects w = true) : row = row' := by
  obtain ⟨i, rfl⟩ := exists_opcodeRowOf_eq hrow
  obtain ⟨i', rfl⟩ := exists_opcodeRowOf_eq hrow'
  obtain ⟨j, hj, hji⟩ := decode_of_selects hsel
  obtain ⟨j', hj', hji'⟩ := decode_of_selects hsel'
  obtain rfl : j = j' := Decoded.command.inj (hj.symm.trans hj')
  exact hji.symm.trans hji'

/-- The DATA of a decoded LOAD (R73). -/
theorem data_of_decode_load {w : Cmd} {data : BitVec 25} (h : decode w = .command (.load data)) :
    data = w.extractLsb' 0 25 := by
  obtain ⟨-, -, hdata⟩ := encode_load_fields data
  rw [← encode_of_decode h, hdata]

/-- The ON, ROW and COL of a decoded LIGHT (R74). -/
theorem fields_of_decode_light {w : Cmd} {on : Bool} {row col : BitVec 3}
    (h : decode w = .command (.light on row col)) :
    on = w.getLsbD 27 ∧ row = w.extractLsb' 4 3 ∧ col = w.extractLsb' 0 3 := by
  rw [← encode_of_decode h]
  exact encode_light_fields on row col

theorem illegal_of_no_row_selects {w : Cmd} (hnone : ∀ row ∈ opcodeTable, row.selects w = false) :
    ∃ why, decode w = .illegal why := by
  cases hdec : decode w with
  | illegal why => exact ⟨why, rfl⟩
  | command i => exact absurd (selects_of_decode hdec) (by simp [hnone _ (opcodeRowOf_mem i)])

theorem length_filter_selects_le_one (w : Cmd) : (opcodeTable.filter fun row => row.selects w).length ≤ 1 := by
  have hnodup : opcodeTable.Nodup := by decide
  rw [← List.toFinset_card_of_nodup (hnodup.filter _), Finset.card_le_one]
  intro row hrow row' hrow'
  simp only [List.mem_toFinset, List.mem_filter] at hrow hrow'
  exact row_eq_of_selects hrow.1 hrow'.1 hrow.2 hrow'.2

/-- Settles O2: the rows select what the encoder writes, and the encoder is the decoder's inverse. -/
theorem decodeFollowsMaskMatchTable : Obligations.DecodeFollowsMaskMatchTable := fun w =>
  ⟨fun _ => selects_of_decode, fun _ => decode_of_selects, fun _ => data_of_decode_load,
    fun _ _ _ => fields_of_decode_light, illegal_of_no_row_selects, length_filter_selects_le_one w⟩

/-! ### Illegal words (R79, R80, R221) -/

/-- A format's decoder answers a command or blames a bit (R80), never the opcode. -/
theorem command_or_reservedBit_ne_reservedOpcode (legal : Prop) [Decidable legal] (i : Instr) :
    (if legal then Decoded.command i else .illegal .reservedBit) ≠ .illegal .reservedOpcode := by
  split <;> nofun

/-- A word is illegal for its opcode iff the opcode is none of the seven that have a format (R78, R79). -/
theorem decode_eq_reservedOpcode_iff (w : Cmd) : decode w = .illegal .reservedOpcode ↔ reservedOpcodeWord w := by
  rw [reservedOpcodeWord, ← opcodeField_toNat]
  unfold decode
  split
  case h_8 => exact iff_of_true rfl (by grind)
  all_goals exact iff_of_false (command_or_reservedBit_ne_reservedOpcode _ _) (by omega)

/-- The table has a row for each opcode below 7 (R78, R79). -/
theorem exists_row_of_opcode_lt {w : Cmd} (hop : (w >>> 28).toNat < 7) :
    ∃ row ∈ opcodeTable, w >>> 28 = row.matchBits >>> 28 := by
  have hrows : ∀ n : Fin 7, ∃ row ∈ opcodeTable, BitVec.ofNat 32 n.val = row.matchBits >>> 28 := by decide
  obtain ⟨row, hrow, heq⟩ := hrows ⟨(w >>> 28).toNat, hop⟩
  exact ⟨row, hrow, by rw [← heq]; simp only [BitVec.ofNat_toNat, BitVec.setWidth_eq]⟩

/-- The opcode of a word is that of a row that selects it (R71, R82). -/
theorem opcode_of_selects {w : Cmd} {row : OpcodeRow} (hrow : row ∈ opcodeTable) (hsel : row.selects w = true) :
    w >>> 28 = row.matchBits >>> 28 := by
  have hmask : ∀ row ∈ opcodeTable, row.mask >>> 28 = BitVec.allOnes 32 >>> 28 := by decide
  rw [← selects_iff.1 hsel, BitVec.ushiftRight_and_distrib, hmask row hrow, ← BitVec.ushiftRight_and_distrib,
    BitVec.and_allOnes]

/-- Rows of one opcode are one row (R82). -/
theorem row_eq_of_opcode_eq : ∀ row ∈ opcodeTable, ∀ row' ∈ opcodeTable,
    row.matchBits >>> 28 = row'.matchBits >>> 28 → row = row' := by
  decide

/-- No row of the table has a reserved opcode (R79). -/
theorem row_opcode_lt : ∀ row ∈ opcodeTable, (row.matchBits >>> 28).toNat < 7 := by decide

/-- A word is illegal for a bit iff its opcode has a row and that row does not select it (R80, R82). -/
theorem decode_eq_reservedBit_iff (w : Cmd) : decode w = .illegal .reservedBit ↔ reservedBitWord w := by
  constructor
  · intro hdec
    have hop : ¬reservedOpcodeWord w := by rw [← decode_eq_reservedOpcode_iff, hdec]; nofun
    obtain ⟨row, hrow, heq⟩ := exists_row_of_opcode_lt (Nat.lt_of_not_le hop)
    refine ⟨row, hrow, heq, fun hmatch => ?_⟩
    obtain ⟨i, rfl⟩ := exists_opcodeRowOf_eq hrow
    obtain ⟨j, hj, -⟩ := decode_of_selects (selects_iff.2 hmatch)
    simp [hj] at hdec
  · rintro ⟨row, hrow, heq, hne⟩
    cases hdec : decode w with
    | command i =>
      have hsel := selects_of_decode hdec
      obtain rfl := row_eq_of_opcode_eq row hrow _ (opcodeRowOf_mem i)
        (heq.symm.trans (opcode_of_selects (opcodeRowOf_mem i) hsel))
      exact absurd (selects_iff.1 hsel) hne
    | illegal why =>
      cases why with
      | reservedBit => rfl
      | reservedOpcode =>
        have hop : reservedOpcodeWord w := (decode_eq_reservedOpcode_iff w).1 hdec
        rw [reservedOpcodeWord, heq] at hop
        exact absurd (row_opcode_lt row hrow) (Nat.not_lt.2 hop)

/-- The step that accepts an illegal word raises ILL and does no more (R221). -/
theorem stepRaisesIll_of_illegal {s : State} {why : Illegal} (hrst : s.rst = false) (hbusy : s.busy = false)
    (hvalid : s.cmdValid = true) (hdec : decode s.cmd = .illegal why) : stepRaisesIll s :=
  ⟨illegalTaken s, step_illegal hrst hbusy hvalid hdec, status_ill _, rfl⟩

/-- Settles O3: the two names of an illegal word, and the step that accepts one. -/
theorem reservedWordRaisesIll : Obligations.ReservedWordRaisesIll := by
  refine ⟨decode_eq_reservedOpcode_iff, decode_eq_reservedBit_iff, fun s hrst hbusy hvalid hword => ?_⟩
  obtain hop | hbit := hword
  · exact stepRaisesIll_of_illegal hrst hbusy hvalid ((decode_eq_reservedOpcode_iff _).2 hop)
  · exact stepRaisesIll_of_illegal hrst hbusy hvalid ((decode_eq_reservedBit_iff _).2 hbit)

/-! ### The presented word (R75, R256) -/

/-- Settles O33: the two laws of the accepting step. -/
theorem stepRunsTheDecodedCommand : Obligations.StepRunsTheDecodedCommand :=
  fun _ hrst hbusy hvalid => ⟨fun _ => step_accept hrst hbusy hvalid, fun _ => step_illegal hrst hbusy hvalid⟩

/-- Settles O34: the fields a step of the busy machine changes are none of those named. -/
theorem commandIsHeldWhileBusy : Obligations.CommandIsHeldWhileBusy := by
  intro s hrst hbusy
  refine ⟨scanTurn s, step_busy hrst hbusy, ?_⟩
  obtain ⟨_, _, _, _, _, _, hframe⟩ := scanTurn_frame s
  simp [hframe]

/-! ### The assembler (R83, R85, R86) -/

theorem assemble_load (data : Nat) :
    assemble (.load data) = if data ≤ 0x1FFFFFF then some (.load (BitVec.ofNat 25 data)) else none := by
  simp [assemble, asmWellFormed, dataInRange, expand, coreInstr]

theorem assemble_light (row col : Nat) (on : Bool) : assemble (.light row col on) =
    if row ≤ 7 ∧ col ≤ 7 then some (.light on (BitVec.ofNat 3 row) (BitVec.ofNat 3 col)) else none := by
  simp [assemble, asmWellFormed, indexInRange, expand, coreInstr]

/-- A legal grid assembles to a LOAD of its data (R85). -/
theorem assemble_loadg {grid : List (List Char)} (hgrid : gridOk grid = true) :
    assemble (.loadg grid) = some (.load (BitVec.ofNat 25 (gridData grid))) := by
  simp [assemble, asmWellFormed, hgrid, expand, coreInstr]

/-- Settles O5: the two operand checks. -/
theorem assemblerChecksRanges : Obligations.AssemblerChecksRanges := ⟨assemble_load, assemble_light⟩

/-- Settles O4: each word and each line evaluates to its command. -/
theorem specWordsDecode : Obligations.SpecWordsDecode := by
  unfold Obligations.SpecWordsDecode
  decide

/-- Bit `i` of a grid's data is its character `i`, the rows read one after the other (R85). -/
theorem testBit_gridData (grid : List (List Char)) (i : Nat) :
    (gridData grid).testBit i = (grid.flatten.getD i '.' == 'X') := by
  unfold gridData
  generalize grid.flatten = chars
  induction chars generalizing i with
  | nil => simp
  | cons ch rest ih =>
    cases i with
    | zero => by_cases hch : ch = 'X' <;> simp [hch, Nat.testBit_zero]
    | succ i =>
      rw [List.foldr_cons, Nat.testBit_succ, List.getD_cons_succ, ← ih]
      congr 1
      split <;> omega

/-- Character `c` of row `r` in the flattened grid, where every row is `n` wide. -/
theorem getD_flatten {n c : Nat} {grid : List (List Char)} (hrows : ∀ row ∈ grid, row.length = n) (hc : c < n)
    (r : Nat) : grid.flatten.getD (n * r + c) '.' = (grid.getD r []).getD c '.' := by
  induction grid generalizing r with
  | nil => simp
  | cons row rest ih =>
    obtain ⟨rfl, hrest⟩ := List.forall_mem_cons.1 hrows
    rw [List.flatten_cons]
    cases r with
    | zero => rw [Nat.mul_zero, Nat.zero_add, List.getD_append _ _ _ _ hc, List.getD_cons_zero]
    | succ r =>
      have hindex : row.length * (r + 1) + c = row.length + (row.length * r + c) := by rw [Nat.mul_succ]; omega
      rw [hindex, List.getD_append_right _ _ _ _ (Nat.le_add_right _ _), Nat.add_sub_cancel_left, ih hrest,
        List.getD_cons_succ]

/-- The rows of a legal grid are five characters wide (R85). -/
theorem row_length_of_gridOk {grid : List (List Char)} (hgrid : gridOk grid = true) :
    ∀ row ∈ grid, row.length = 5 := by
  simp only [gridOk, gridRowOk, Bool.and_eq_true, beq_iff_eq, List.all_eq_true] at hgrid
  exact fun row hrow => (hgrid.2 row hrow).1

/-- Bit `5r + c` of a legal grid's data is 1 iff character `c` of row `r` is `X` (R85). -/
theorem getLsbD_gridData {grid : List (List Char)} (hgrid : gridOk grid = true) (r c : Fin 5) :
    (BitVec.ofNat 25 (gridData grid)).getLsbD (5 * r.val + c.val) = ((grid.getD r.val []).getD c.val '.' == 'X') := by
  have hrows := row_length_of_gridOk hgrid
  have hlt : 5 * r.val + c.val < 25 := (cellIndex r c).isLt
  rw [← getD_flatten hrows c.isLt r, ← testBit_gridData, BitVec.getLsbD_ofNat, decide_eq_true hlt, Bool.true_and]

/-- Settles O6: only LOADG's expansion is more than a renaming. -/
theorem pseudoInstructionsExpand : Obligations.PseudoInstructionsExpand :=
  ⟨fun _ _ => rfl, fun _ _ => rfl, rfl, rfl, rfl, fun _ hgrid => ⟨_, assemble_loadg hgrid, getLsbD_gridData hgrid⟩⟩

end Sys2Proof.Machine
end

section
/-! Life transition (40_life_transition.md): the neighbour sum, the table and the next generation, and what each command
that writes the world leads to. -/

namespace Sys2Proof.Machine

/-! ### The neighbour sum (R100, R101) -/

/-- A cell's row and column are read off its index (R51). -/
theorem cellIndex_injective : Function.Injective fun q : Fin 5 × Fin 5 => (cellIndex q.1 q.2).val := by
  intro p q hpq
  have hindex : cellIndex p.1 p.2 = cellIndex q.1 q.2 := Fin.ext hpq
  have hrow := congrArg cellRow hindex
  have hcol := congrArg cellCol hindex
  rw [cellRow_cellIndex, cellRow_cellIndex] at hrow
  rw [cellCol_cellIndex, cellCol_cellIndex] at hcol
  exact Prod.ext hrow hcol

/-- Every listed neighbour is the index of a cell (R52). -/
theorem lt_of_mem_neighbours {k : Fin 25} {j : Nat} (hj : j ∈ neighbours k) : j < 25 := by
  obtain ⟨⟨dr, dc⟩, -, rfl⟩ := List.mem_map.1 hj
  have hrow := mod5_lt ((cellRow k).val + dr)
  have hcol := mod5_lt ((cellCol k).val + dc)
  simp only [neighbourAt]
  omega

/-- The listed neighbours are the indices of the 3×3 ring's cells (R52, R53). -/
theorem neighbours_toFinset (p : Fin 5 × Fin 5) : (neighbours (cellIndex p.1 p.2)).toFinset =
    (Finset.univ.filter (torusNeighbour p)).image fun q => (cellIndex q.1 q.2).val := by
  ext j
  simp only [List.mem_toFinset, Finset.mem_image, Finset.mem_filter, Finset.mem_univ, true_and]
  constructor
  · intro hj
    have hlt := lt_of_mem_neighbours hj
    have hring := (mem_neighbours_iff _ ⟨j, hlt⟩).1 hj
    rw [cellRow_cellIndex, cellCol_cellIndex] at hring
    exact ⟨_, hring, by rw [cellIndex_cellRow_cellCol]⟩
  · rintro ⟨q, hring, rfl⟩
    rw [mem_neighbours_iff]
    simpa only [cellRow_cellIndex, cellCol_cellIndex] using hring

/-- The live neighbours are counted among the cells of the 3×3 ring (R52, R100). -/
theorem liveNeighbours_eq_card (w : World) (p : Fin 5 × Fin 5) : liveNeighbours w p =
    ((Finset.univ.filter (torusNeighbour p)).filter fun q => cellAt w q.1 q.2 = true).card := by
  rw [Finset.filter_filter]
  rfl

/-- The neighbour sum adds up the cells of the 3×3 ring, so it counts the live ones (R100). -/
theorem nsum_eq_liveNeighbours (w : World) (p : Fin 5 × Fin 5) : nsum w (cellIndex p.1 p.2) = liveNeighbours w p := by
  have htoNat : ∀ b : Bool, b.toNat = if b = true then 1 else 0 := by decide
  calc nsum w (cellIndex p.1 p.2)
      = ∑ j ∈ (neighbours (cellIndex p.1 p.2)).toFinset, (w.getLsbD j).toNat :=
        (List.sum_toFinset _ (neighbours_nodup _)).symm
    _ = ∑ q with torusNeighbour p q, (cellAt w q.1 q.2).toNat := by
        rw [neighbours_toFinset, Finset.sum_image cellIndex_injective.injOn]
        rfl
    _ = liveNeighbours w p := by
        rw [liveNeighbours_eq_card, Finset.card_filter]
        simp only [htoNat]

/-- A cell has eight toroidal neighbours (R52). -/
theorem card_torusNeighbour (p : Fin 5 × Fin 5) : (Finset.univ.filter (torusNeighbour p)).card = 8 := by
  rw [← Finset.card_image_of_injective _ cellIndex_injective, ← neighbours_toFinset,
    List.toFinset_card_of_nodup (neighbours_nodup _), neighbours_length]

theorem liveNeighbours_le (w : World) (p : Fin 5 × Fin 5) : liveNeighbours w p ≤ 8 := by
  rw [← nsum_eq_liveNeighbours]
  exact nsum_le w _

/-- All eight neighbours are counted iff each of them is alive (R101). -/
theorem liveNeighbours_eq_eight_iff (w : World) (p : Fin 5 × Fin 5) :
    liveNeighbours w p = 8 ↔ ∀ q, torusNeighbour p q → cellAt w q.1 q.2 = true := by
  rw [liveNeighbours_eq_card, ← card_torusNeighbour p, Finset.card_filter_eq_iff]
  simp only [Finset.mem_filter, Finset.mem_univ, true_and]

/-- Settles O8, by way of the count of live cells in the ring. -/
theorem neighbourSumCountsLiveNeighbours : Obligations.NeighbourSumCountsLiveNeighbours := by
  intro w r c
  refine ⟨nsum_eq_liveNeighbours w (r, c), nsum_le w _, ?_⟩
  rw [nsum_eq_liveNeighbours w (r, c)]
  exact liveNeighbours_eq_eight_iff w (r, c)

/-! ### The table and the next generation (R102 to R105) -/

/-- The table's 18 entries (R102) are the values of the next-cell function (R103). -/
theorem lut_eq (a : Bool) (n : Fin 9) : lut a n.val = (n.val == 3 || (a && n.val == 2)) := by
  decide +revert

/-- Settles O9: rows 0 and 1 of the next-cell function, and the function itself. -/
theorem lutIsNextCellFunction : Obligations.LutIsNextCellFunction :=
  ⟨fun n => by simp [lut_eq], fun n => by simp [lut_eq, Bool.or_comm], lut_eq⟩

/-- A cell of the next generation is the table's entry for its value and its live neighbours (R104). -/
theorem cellAt_nextWorld (w : World) (p : Fin 5 × Fin 5) :
    cellAt (nextWorld w) p.1 p.2 = lut (cellAt w p.1 p.2) (liveNeighbours w p) := by
  rw [cellAt, getLsbD_nextWorld, nsum_eq_liveNeighbours, cellAt]

/-- A cell of the next generation has Conway's next value (R105). -/
theorem cellAt_nextWorld_eq_conwayNext (w : World) (p : Fin 5 × Fin 5) :
    cellAt (nextWorld w) p.1 p.2 = conwayNext w p := by
  rw [cellAt_nextWorld]
  exact lut_eq _ ⟨liveNeighbours w p, Nat.lt_succ_of_le (liveNeighbours_le w p)⟩

/-- Under- and overpopulation: a cell survives only next to two or three live cells (R105). -/
theorem conwayNext_of_lonely_or_crowded {w : World} {p : Fin 5 × Fin 5}
    (hcount : liveNeighbours w p < 2 ∨ 3 < liveNeighbours w p) : conwayNext w p = false := by
  have hne2 : liveNeighbours w p ≠ 2 := by omega
  have hne3 : liveNeighbours w p ≠ 3 := by omega
  simp [conwayNext, hne2, hne3]

/-- Nothing is born in an empty world (R105). -/
theorem nextWorld_zero : nextWorld 0#25 = 0#25 := by decide

/-- In a full world every cell dies of overpopulation (R101, R104). -/
theorem nextWorld_full : nextWorld 0x1FFFFFF#25 = 0#25 := by decide

/-- The example of R104: the horizontal blinker becomes the vertical one. -/
theorem nextWorld_blinker : nextWorld 0x0003800#25 = 0x0021080#25 := by decide

theorem exec_step (s : State) : exec .step s = .next { s with world := nextWorld s.world } := rfl

/-- STEP reads the world alone (R104). -/
theorem exec_step_of_world_eq {s s' : State} (hworld : s'.world = s.world) :
    exec .step s' = .next { s' with world := nextWorld s.world } := by
  rw [exec_step, hworld]

/-- Bit 0 of the status word follows the world written (R27, R32). -/
theorem status_quiescent_iff_of_world (w : World) (s : State) :
    ({ s with world := w } : State).status.getLsbD 0 = true ↔ w = 0 := by
  rw [status_quiescent]
  exact quiescent_iff _

/-- A word with the opcode of a command without operands and a bit of 27:0 set is illegal (R72, R80). -/
theorem decode_formatN_reservedBit {w : Cmd} (hop : opcodeField w ∈ [0x0#4, 0x1#4, 0x2#4, 0x4#4, 0x6#4])
    (hne : w.extractLsb' 0 28 ≠ 0#28) : decode w = .illegal .reservedBit := by
  simp only [List.mem_cons, List.not_mem_nil, or_false] at hop
  obtain hop | hop | hop | hop | hop := hop
  all_goals rw [decode, hop]; exact if_neg hne

/-- STEP's opcode in a word that is not STEP's is illegal (R80, R104). -/
theorem decode_step_reservedBit {w : Cmd} (hop : opcodeField w = 1#4) (hne : w ≠ encode .step) :
    decode w = .illegal .reservedBit := by
  refine decode_formatN_reservedBit (by simp [hop]) fun hzero => hne ?_
  rw [encode, ← formatN_fields w, hop, hzero]

/-- Settles O10: the next generation, and the three worlds the rule names. -/
theorem stepAdvancesOneGeneration : Obligations.StepAdvancesOneGeneration := by
  refine ⟨rfl, fun w hop hne => decode_step_reservedBit hop hne, fun s => ⟨nextWorld s.world, exec_step s,
    fun r c => cellAt_nextWorld s.world (r, c), fun s' => exec_step_of_world_eq,
    status_quiescent_iff_of_world _ s, rfl, fun hworld => ?_, fun hworld => ?_, fun hworld => ?_⟩⟩
  · rw [hworld]; exact nextWorld_zero
  · rw [hworld]; exact nextWorld_full
  · rw [hworld]; exact nextWorld_blinker

/-- Settles O11: death by under- and overpopulation is read off Conway's rule. -/
theorem stepLawsHold : Obligations.StepLawsHold := by
  refine fun s => ⟨_, exec_step s, fun hquiet => ?_, fun s' hworld => ⟨_, exec_step_of_world_eq hworld, rfl⟩,
    fun p _ hcount => ?_, cellAt_nextWorld_eq_conwayNext s.world⟩
  · rw [quiescent_iff] at hquiet ⊢
    exact (congrArg nextWorld hquiet).trans nextWorld_zero
  · exact (cellAt_nextWorld_eq_conwayNext s.world p).trans (conwayNext_of_lonely_or_crowded hcount)

/-! ### Symmetries of the torus (D3) -/

/-- The world whose cell `p` is cell `σ p` of `w`. -/
def permuteCells (σ : Equiv.Perm (Fin 5 × Fin 5)) (w : World) : World :=
  worldFrom fun r c => cellAt w (σ (r, c)).1 (σ (r, c)).2

/-- A permutation of the cells under which neighbours stay neighbours. -/
def KeepsNeighbours (σ : Equiv.Perm (Fin 5 × Fin 5)) : Prop :=
  ∀ p q, torusNeighbour p q ↔ torusNeighbour (σ p) (σ q)

/-- A world is what its cells are (R51). -/
theorem world_ext_cellAt {v w : World} (h : ∀ p : Fin 5 × Fin 5, cellAt v p.1 p.2 = cellAt w p.1 p.2) : v = w := by
  refine world_ext fun k => ?_
  simpa only [cellAt, cellIndex_cellRow_cellCol] using h (cellRow k, cellCol k)

theorem cellAt_worldFrom (f : Fin 5 → Fin 5 → Bool) (r c : Fin 5) : cellAt (worldFrom f) r c = f r c := by
  rw [worldFrom, cellAt_ofBits, dif_pos (cellIndex r c).isLt, Fin.eta, cellRow_cellIndex, cellCol_cellIndex]

theorem cellAt_permuteCells (σ : Equiv.Perm (Fin 5 × Fin 5)) (w : World) (p : Fin 5 × Fin 5) :
    cellAt (permuteCells σ w) p.1 p.2 = cellAt w (σ p).1 (σ p).2 :=
  cellAt_worldFrom _ p.1 p.2

/-- The live neighbours of a cell are carried to those of its image. -/
theorem liveNeighbours_permuteCells {σ : Equiv.Perm (Fin 5 × Fin 5)} (hσ : KeepsNeighbours σ) (w : World)
    (p : Fin 5 × Fin 5) : liveNeighbours (permuteCells σ w) p = liveNeighbours w (σ p) := by
  refine Finset.card_equiv σ fun q => ?_
  simp only [Finset.mem_filter, Finset.mem_univ, true_and, cellAt_permuteCells, hσ p q]

/-- The life rule reads a cell and its live neighbours alone, so it commutes with every symmetry of the torus (D3). -/
theorem nextWorld_permuteCells {σ : Equiv.Perm (Fin 5 × Fin 5)} (hσ : KeepsNeighbours σ) (w : World) :
    nextWorld (permuteCells σ w) = permuteCells σ (nextWorld w) := by
  refine world_ext_cellAt fun p => ?_
  rw [cellAt_permuteCells, cellAt_nextWorld, cellAt_nextWorld, cellAt_permuteCells, liveNeighbours_permuteCells hσ]

/-- Two places of a ring of five are as close as their mirror images. -/
theorem ringClose_rev (x y : Fin 5) : ringClose x y ↔ ringClose x.rev y.rev := by
  decide +revert

/-- Exchanging rows and columns. -/
def transposition : Equiv.Perm (Fin 5 × Fin 5) := Equiv.prodComm _ _

/-- Reversing the order of the rows. -/
def rowReversal : Equiv.Perm (Fin 5 × Fin 5) := Fin.revPerm.prodCongr (Equiv.refl _)

/-- Reversing the order of the columns. -/
def colReversal : Equiv.Perm (Fin 5 × Fin 5) := (Equiv.refl _).prodCongr Fin.revPerm

theorem keepsNeighbours_transposition : KeepsNeighbours transposition :=
  fun _ _ => and_congr transposition.injective.ne_iff.symm and_comm

theorem keepsNeighbours_rowReversal : KeepsNeighbours rowReversal :=
  fun _ _ => and_congr rowReversal.injective.ne_iff.symm (and_congr_left' (ringClose_rev _ _))

theorem keepsNeighbours_colReversal : KeepsNeighbours colReversal :=
  fun _ _ => and_congr colReversal.injective.ne_iff.symm (and_congr_right' (ringClose_rev _ _))

/-- Settles O12: the three maps of the statement are symmetries of the torus. -/
theorem generationCommutesWithSymmetries : Obligations.GenerationCommutesWithSymmetries :=
  fun w => ⟨nextWorld_permuteCells keepsNeighbours_transposition w,
    nextWorld_permuteCells keepsNeighbours_rowReversal w, nextWorld_permuteCells keepsNeighbours_colReversal w⟩

/-! ### RAND (R106) -/

/-- Cell `k` after RAND is bit 0 of the `k`-th answer: the `k`-th fixed one, or the free value at its count (R106). -/
theorem getLsbD_randWorld (s : State) (k : Fin 25) : (randWorld s).world.getLsbD k.val =
    ((s.env.bytes.queued[k.val]?).getD (Config.freeByte (s.env.bytes.taken + k.val))).getLsbD 0 := by
  obtain ⟨-, -, hanswers⟩ := drawMany_spec Config.freeByte 25 s.env.bytes
  rw [randWorld_eq, getLsbD_worldOfBytes, List.getD_eq_getElem?_getD, hanswers k.val k.isLt, Option.getD_some]

/-- Settles O13: RAND's effect as `randWorld_eq` gives it, and its world cell by cell. -/
theorem randWritesTwentyFiveDraws : Obligations.RandWritesTwentyFiveDraws :=
  fun s => ⟨(randWorld s).world, congrArg Host.Outcome.next (randWorld_eq s), getLsbD_randWorld s⟩

/-- Bytes that RAND turns into `w`: byte `k` is cell `k` in bit 0 and zeros. -/
def bytesOfWorld (w : World) : List Byte := List.ofFn fun k : Fin 25 => writeBit 0#8 0 (w.getLsbD k.val)

theorem getElem?_bytesOfWorld (w : World) (k : Fin 25) :
    (bytesOfWorld w)[k.val]? = some (writeBit 0#8 0 (w.getLsbD k.val)) := by
  rw [bytesOfWorld, List.getElem?_ofFn, dif_pos k.isLt]

/-- Settles O14: RAND reads a world back from its bytes. -/
theorem randReachesEveryWorld : Obligations.RandReachesEveryWorld := by
  refine fun s w => ⟨bytesOfWorld w, List.length_ofFn, _, rfl, world_ext fun k => ?_⟩
  rw [getLsbD_randWorld, getElem?_bytesOfWorld, Option.getD_some, getLsbD_writeBit, if_pos (by decide)]

/-! ### LOAD (R107) -/

theorem exec_load (data : BitVec 25) (s : State) : exec (.load data) s = .next { s with world := data } := rfl

/-- A word of LOAD's opcode with a bit of 27:25 set is illegal (R73, R80). -/
theorem decode_formatL_reservedBit {w : Cmd} (hop : opcodeField w = 3#4) (hne : w.extractLsb' 25 3 ≠ 0#3) :
    decode w = .illegal .reservedBit := by
  rw [decode, hop]
  exact if_neg hne

/-- Settles O15: the effect, and the words of LOAD's opcode, which format L splits in two. -/
theorem loadWritesTheWorld : Obligations.LoadWritesTheWorld :=
  ⟨exec_load, status_quiescent_iff_of_world, fun _ hop hzero => decode_of_formatL hop hzero,
    fun _ hrst hbusy hvalid hop hne => stepRaisesIll_of_illegal hrst hbusy hvalid (decode_formatL_reservedBit hop hne),
    fun s => exec_load s.world s, by decide⟩

/-! ### CPL (R108) -/

/-- XOR with a one in every cell flips every cell (R108). -/
theorem xor_full_eq_not (w : World) : w ^^^ 0x1FFFFFF#25 = ~~~w := BitVec.xor_allOnes

theorem exec_cpl (s : State) : exec .cpl s = .next { s with world := ~~~s.world } := by
  rw [← xor_full_eq_not]
  rfl

theorem cellAt_not (w : World) (r c : Fin 5) : cellAt (~~~w) r c = !cellAt w r c := by
  simp [cellAt, (cellIndex r c).isLt]

/-- No world is its own complement: a cell cannot be both values (R108). -/
theorem complement_ne_self (w : World) : ~~~w ≠ w := by
  intro heq
  have hcell := cellAt_not w 0 0
  rw [heq] at hcell
  exact (Bool.eq_not_self _).1 hcell

/-- Settles O16, with the complement as bitwise negation. -/
theorem complementFlipsEveryCell : Obligations.ComplementFlipsEveryCell := by
  refine ⟨rfl, fun s => ⟨~~~s.world, exec_cpl s, cellAt_not s.world, (xor_full_eq_not _).symm,
    complement_ne_self _, ?_, status_quiescent_iff_of_world _ s, fun hfull => ?_, fun hempty => ?_, fun hworld => ?_⟩⟩
  · rw [exec_cpl, BitVec.not_not]
  · rw [hfull]; rfl
  · rw [hempty]; rfl
  · rw [hworld]; rfl

/-! ### NOP (R109) -/

/-- Settles O17: opcode 0 has format N, so the all-zero word is its only legal one. -/
theorem nopChangesNothing : Obligations.NopChangesNothing :=
  ⟨fun _ => rfl, rfl, decode_encode .nop, fun _ hrst hbusy hvalid hop hne =>
    stepRaisesIll_of_illegal hrst hbusy hvalid (decode_formatN_reservedBit (List.mem_cons.2 (.inl hop)) hne)⟩

end Sys2Proof.Machine
end

section
/-! Scan sequencer (41_scan_sequencer.md): LIGHT's line pair, the lights a sweep still has to set, and what follows
for its length, its lines and the cells it shows. -/

namespace Sys2Proof.Machine

/-! ### Lit cells (R140, R141) -/

theorem lit_iff (s : State) (r c : Fin 5) :
    s.lit r c = true ↔ s.row.getLsbD r.val = true ∧ s.col.getLsbD c.val = false := by simp [State.lit]

/-- Settles O23: lit is a condition on the row alone and one on the column alone. -/
theorem litSetIsAProduct : Obligations.LitSetIsAProduct := by
  refine fun s => ⟨lit_iff s, fun r r' c c' hlit hlit' => ?_⟩
  obtain ⟨hrow, -⟩ := (lit_iff s r c).1 hlit
  obtain ⟨-, hcol⟩ := (lit_iff s r' c').1 hlit'
  exact (lit_iff s r c').2 ⟨hrow, hcol⟩

theorem linesIdle_iff (s : State) : s.linesIdle = true ↔ s.row = 0#5 ∧ s.col = 0b11111#5 := by
  simp [State.linesIdle]

/-- A cell is its row and its column (R51). -/
theorem cellRow_cellCol_inj {j k : Fin 25} : (cellRow j = cellRow k ∧ cellCol j = cellCol k) ↔ j = k := by
  refine ⟨fun ⟨hrow, hcol⟩ => ?_, fun h => h ▸ ⟨rfl, rfl⟩⟩
  rw [← cellIndex_cellRow_cellCol j, hrow, hcol, cellIndex_cellRow_cellCol]

/-- Idle lines light no cell (R26, R141). -/
theorem litCells_of_linesIdle {s : State} (hidle : s.linesIdle = true) : litCells s = [] := by
  obtain ⟨hrow, -⟩ := (linesIdle_iff s).1 hidle
  simp [litCells, State.lit, hrow]

/-- One row high and one column low light the one cell where they meet (R140, R141). -/
theorem litCells_of_line_pair {s : State} {k : Fin 25} (hrow : s.row = BitVec.twoPow 5 (cellRow k).val)
    (hcol : s.col = ~~~(BitVec.twoPow 5 (cellCol k).val)) : litCells s = [k] := by
  have hlit (j : Fin 25) : s.lit (cellRow j) (cellCol j) = (j == k) := by
    rw [Bool.eq_iff_iff, lit_iff, beq_iff_eq, (eq_comm : j = k ↔ k = j), ← cellRow_cellCol_inj, hrow, hcol]
    simp only [BitVec.getLsbD_not, BitVec.getLsbD_twoPow, Fin.isLt, decide_true, Bool.true_and, Bool.not_eq_false',
      decide_eq_true_eq, Fin.val_inj]
  simp only [litCells, hlit]
  rw [List.filter_beq, List.count_eq_one_of_mem (List.nodup_finRange 25) (List.mem_finRange k)]
  rfl

/-! ### LIGHT (R142, R143, R152) -/

/-- A word of LIGHT's opcode is the LIGHT of its fields, or illegal (R74, R80). -/
theorem decode_of_light_opcode {w : Cmd} (hop : w.extractLsb' 28 4 = 5#4) : decode w = decodeFormatD w := by
  rw [decode, show opcodeField w = 5#4 from hop]
  rfl

/-- A field below 5 names its line (R59, R76). -/
theorem lineOf_of_lt {field : BitVec 3} (h : field.toNat < 5) : lineOf field = some ⟨field.toNat, h⟩ := dif_pos h

/-- LIGHT in range is its pair of line writes (R142). -/
theorem exec_light_of_lt {row col : BitVec 3} (hrow : row.toNat < 5) (hcol : col.toNat < 5) (on : Bool) (s : State) :
    exec (.light on row col) s = .next (driveCell ⟨row.toNat, hrow⟩ ⟨col.toNat, hcol⟩ on s) := by
  rw [exec_eq, afterInstr, lightLines, lineOf_of_lt hrow, lineOf_of_lt hcol]

/-- LIGHT in range with line writes that take effect (R142). -/
theorem exec_light_of_reliable {row col : BitVec 3} (hrow : row.toNat < 5) (hcol : col.toNat < 5) (on : Bool) (s : State)
    (hreliable : s.params.lineWriteMayFail = false) : exec (.light on row col) s =
      .next { s with row := writeBit s.row row.toNat on, col := writeBit s.col col.toNat (!on) } := by
  rw [exec_light_of_lt hrow hcol, driveCell_of_reliable _ _ _ _ hreliable]

/-- Writing a line to the value it has just been given changes nothing (R142). -/
theorem writeBit_writeBit {n : Nat} (v : BitVec n) (i : Nat) (b : Bool) :
    writeBit (writeBit v i b) i b = writeBit v i b := by
  refine BitVec.eq_of_getLsbD_eq fun j _ => ?_
  simp only [getLsbD_writeBit]
  split <;> rfl

/-- A line of five after one line write (R24, R25). -/
theorem getLsbD_writeBit_line (v : Lines) (i : Fin 5) {line : Nat} (hline : line < 5) (b : Bool) :
    (writeBit v line b).getLsbD i.val = if i.val = line then b else v.getLsbD i.val := by
  simp only [getLsbD_writeBit, hline, and_true]

/-- Settles O24: the decoder's own format, the two ranges of the indices, and the example computed from the range law. -/
theorem lightDrivesOneLinePair : Obligations.LightDrivesOneLinePair := by
  refine ⟨fun w hop => decode_of_light_opcode hop, fun on row col s hout => ?_,
    fun on row col s hreliable hrow hcol => ?_, fun s hreliable hidle => ⟨?_, ?_⟩⟩
  · rw [exec_eq, afterInstr, lightLines_of_out_of_range s (by omega)]
  · refine ⟨_, _, exec_light_of_reliable hrow hcol on s hreliable, fun i => getLsbD_writeBit_line s.row i hrow on,
      fun i => getLsbD_writeBit_line s.col i hcol (!on), ?_, fun hon r c hc hr => ?_, fun hoff r c hrc => ?_⟩
    · refine (exec_light_of_reliable hrow hcol on _ ?_).trans ?_
      · exact hreliable
      · simp only [writeBit_writeBit]
    · rw [lit_iff, getLsbD_writeBit_line _ _ hrow, getLsbD_writeBit_line _ _ hcol]
      simpa [hon, hc] using hr
    · rw [Bool.eq_false_iff, Ne, lit_iff, getLsbD_writeBit_line _ _ hrow, getLsbD_writeBit_line _ _ hcol]
      obtain hr | hc := hrc
      · simp [hoff, hr]
      · simp [hoff, hc]
  · obtain ⟨hrow, hcol⟩ := (linesIdle_iff s).1 hidle
    rw [exec_light_of_reliable (by decide) (by decide) true s hreliable, hrow, hcol]
    rfl
  · exact litCells_of_line_pair (k := cellIndex 2 3) rfl rfl

/-- Answer `n` of the line draws to come (R10, R152). -/
def lineAnswer (s : State) (n : Nat) : Bool := (s.env.lineOk.queued[n]?).getD (Config.freeLineOk (s.env.lineOk.taken + n))

/-- `n` line draws taken (R10, R152). -/
def takeLineDraws (n : Nat) (s : State) : State :=
  { s with env := { s.env with lineOk := ⟨s.env.lineOk.queued.drop n, s.env.lineOk.taken + n⟩ } }

/-- A line write's draw where line writes may fail (R152). -/
theorem lineOk_of_failing {s : State} (hfail : s.params.lineWriteMayFail = true) :
    lineOk s = (lineAnswer s 0, takeLineDraws 1 s) := by
  simp only [lineOk, hfail, if_true, drawFrom_eq]
  rfl

theorem writeRow_of_failing {s : State} (hfail : s.params.lineWriteMayFail = true) (r : Fin 5) (v : Bool) :
    writeRow r v s =
      { takeLineDraws 1 s with row := if lineAnswer s 0 then writeBit s.row r.val v else s.row } := by
  rw [writeRow, lineOk_of_failing hfail]
  split <;> rfl

theorem writeCol_of_failing {s : State} (hfail : s.params.lineWriteMayFail = true) (c : Fin 5) (v : Bool) :
    writeCol c v s =
      { takeLineDraws 1 s with col := if lineAnswer s 0 then writeBit s.col c.val v else s.col } := by
  rw [writeCol, lineOk_of_failing hfail]
  split <;> rfl

/-- LIGHT's pair of writes where line writes may fail: the row's draw, then the column's (R152; log entry 9). -/
theorem driveCell_of_failing {s : State} (hfail : s.params.lineWriteMayFail = true) (r c : Fin 5) (on : Bool) :
    driveCell r c on s = { takeLineDraws 2 s with
      row := if lineAnswer s 0 then writeBit s.row r.val on else s.row
      col := if lineAnswer s 1 then writeBit s.col c.val (!on) else s.col } := by
  have hrow := writeRow_of_failing hfail r on
  rw [driveCell, writeCol_of_failing (s := writeRow r on s) (by rw [hrow]; exact hfail), hrow]
  simp only [takeLineDraws, lineAnswer, List.getElem?_drop, List.drop_drop]
  rfl

/-- A line of five after a line write that is kept or lost (R152). -/
theorem getLsbD_kept_writeBit_line (ok : Bool) (v : Lines) (i : Fin 5) {line : Nat} (hline : line < 5) (b : Bool) :
    (if ok then writeBit v line b else v).getLsbD i.val =
      if ok = true ∧ i.val = line then b else v.getLsbD i.val := by
  cases ok with
  | false => simp only [Bool.false_eq_true, if_false, false_and]
  | true => simp only [if_true, true_and, getLsbD_writeBit_line v i hline]

/-- Settles O25: the row's own draw and the column's own draw decide. -/
theorem failingLineWritesLoseOneLine : Obligations.FailingLineWritesLoseOneLine := by
  intro on row col s hfail hrow hcol
  exact ⟨_, _, lineAnswer s 0, lineAnswer s 1, rfl, rfl,
    (exec_light_of_lt hrow hcol on s).trans (congrArg _ (driveCell_of_failing hfail _ _ on)),
    fun i => getLsbD_kept_writeBit_line _ s.row i hrow on, fun i => getLsbD_kept_writeBit_line _ s.col i hcol (!on)⟩

/-! ### The lights a sweep has still to set (R144 to R148) -/

/-- Settles O26: SCAN is the change of `sstate` alone. -/
theorem scanStartsTheSequencer : Obligations.ScanStartsTheSequencer :=
  ⟨rfl, fun _ => ⟨rfl, status_busy _⟩⟩

/-- The LIGHTs of one cell of the sweep (R148). -/
def cellLights (w : World) (k : Fin 25) : List (Bool × Fin 25) :=
  if w.getLsbD k.val then [(true, k), (false, k)] else [(false, k)]

/-- The LIGHTs of the cells from index `n` on. -/
def lightsFrom (w : World) (n : Nat) : List (Bool × Fin 25) := ((List.finRange 25).drop n).flatMap (cellLights w)

/-- The LIGHTs a sequencer standing at `v` has still to perform, one a step. -/
def pendingLights (w : World) : ScanState → List (Bool × Fin 25)
  | .idle => []
  | .cell k => lightsFrom w k.val
  | .dwell k => (false, k) :: lightsFrom w (k.val + 1)

/-- Where the sequencer stands after a LIGHT of its sweep (R145, R146). -/
def scanAfter (l : Bool × Fin 25) : ScanState := if l.1 then .dwell l.2 else scanNext l.2

/-- At CELL(0) the whole LIGHT sequence is still to come (R144, R148). -/
theorem pendingLights_of_cell_zero {s : State} (hcell : s.sstate = .cell 0) :
    pendingLights s.world s.sstate = lightSequence s.world := by
  rw [hcell]
  rfl

theorem cellLights_of_live {w : World} {k : Fin 25} (hlive : w.getLsbD k.val = true) :
    cellLights w k = [(true, k), (false, k)] := if_pos hlive

theorem cellLights_of_dead {w : World} {k : Fin 25} (hdead : w.getLsbD k.val = false) : cellLights w k = [(false, k)] :=
  if_neg (by rw [hdead]; decide)

theorem pendingLights_dwell (w : World) (k : Fin 25) :
    pendingLights w (.dwell k) = (false, k) :: lightsFrom w (k.val + 1) := rfl

theorem pendingLights_cell (w : World) (k : Fin 25) :
    pendingLights w (.cell k) = cellLights w k ++ lightsFrom w (k.val + 1) := by
  rw [pendingLights, lightsFrom, List.drop_eq_getElem_cons (by simp), List.flatMap_cons]
  simp [lightsFrom]

@[simp] theorem pendingLights_scanNext (w : World) (k : Fin 25) :
    pendingLights w (scanNext k) = lightsFrom w (k.val + 1) := by
  unfold scanNext
  split
  · rfl
  · rw [lightsFrom, List.drop_eq_nil_of_le (by rw [List.length_finRange]; omega)]
    rfl

/-- In CELL(k) and DWELL(k) the next LIGHT is of cell `k`: on in a cell step of a live cell, off otherwise (R145, R146). -/
theorem pendingLights_of_cell_or_dwell (w : World) {v : ScanState} {k : Fin 25} (hv : v = .cell k ∨ v = .dwell k) :
    ∃ on, pendingLights w v = (on, k) :: pendingLights w (scanAfter (on, k)) ∧
      (on = true ↔ v = .cell k ∧ w.getLsbD k.val = true) := by
  obtain rfl | rfl := hv
  · refine ⟨w.getLsbD k.val, ?_, by simp⟩
    rw [pendingLights_cell]
    cases hlive : w.getLsbD k.val with
    | true => rw [cellLights_of_live hlive]; rfl
    | false => rw [cellLights_of_dead hlive, ← pendingLights_scanNext]; rfl
  · exact ⟨false, by rw [pendingLights_dwell, ← pendingLights_scanNext]; rfl, by simp⟩

/-- No LIGHT is left iff the sequencer is idle (R147). -/
theorem pendingLights_eq_nil_iff (w : World) (v : ScanState) : pendingLights w v = [] ↔ v = .idle := by
  cases v with
  | idle => simp [pendingLights]
  | cell k =>
    obtain ⟨on, hpending, -⟩ := pendingLights_of_cell_or_dwell w (v := .cell k) (.inl rfl)
    simp [hpending]
  | dwell k => simp [pendingLights]

/-- The next LIGHT names the cell the sequencer stands at, and what is left follows (R145, R146). -/
theorem state_of_pendingLights_cons {w : World} {v : ScanState} {l : Bool × Fin 25} {rest : List (Bool × Fin 25)}
    (hpending : pendingLights w v = l :: rest) : (v = .cell l.2 ∨ v = .dwell l.2) ∧
      rest = pendingLights w (scanAfter l) ∧ (l.1 = true ↔ v = .cell l.2 ∧ w.getLsbD l.2.val = true) := by
  have hcell (k : Fin 25) (hv : v = .cell k ∨ v = .dwell k) : (v = .cell l.2 ∨ v = .dwell l.2) ∧
      rest = pendingLights w (scanAfter l) ∧ (l.1 = true ↔ v = .cell l.2 ∧ w.getLsbD l.2.val = true) := by
    obtain ⟨on, hcons, hon⟩ := pendingLights_of_cell_or_dwell w hv
    obtain ⟨rfl, rfl⟩ := List.cons.inj (hpending.symm.trans hcons)
    exact ⟨hv, rfl, hon⟩
  cases v with
  | idle => cases hpending
  | cell k => exact hcell k (.inl rfl)
  | dwell k => exact hcell k (.inr rfl)

/-- A step of the sequencer performs the next LIGHT and moves on (R145, R146, R148). -/
theorem scanStep_of_pendingLights {s : State} {l : Bool × Fin 25} {rest : List (Bool × Fin 25)}
    (hpending : pendingLights s.world s.sstate = l :: rest) :
    scanStep s = setScan (scanAfter l) (driveCell (cellRow l.2) (cellCol l.2) l.1 s) := by
  obtain ⟨on, k⟩ := l
  obtain ⟨hstate, -, hon⟩ := state_of_pendingLights_cons hpending
  unfold scanStep
  obtain hcell | hdwell := hstate
  · rw [hcell]
    by_cases hlive : s.world.getLsbD k.val = true
    · obtain rfl : on = true := hon.2 ⟨hcell, hlive⟩
      exact if_pos hlive
    · obtain rfl : on = false := Bool.eq_false_iff.2 fun h => hlive (hon.1 h).2
      exact if_neg hlive
  · obtain rfl : on = false := Bool.eq_false_iff.2 fun h => by simpa [hdwell] using (hon.1 h).1
    rw [hdwell]
    rfl

/-- With no LIGHT left the sequencer is idle and does nothing. -/
theorem scanStep_of_pendingLights_nil {s : State} (hpending : pendingLights s.world s.sstate = []) : scanStep s = s := by
  have hidle := (pendingLights_eq_nil_iff _ _).1 hpending
  simp only [scanStep, hidle]

/-- A step of the sequencer takes the next LIGHT off those left, at `IDLE` none (R147). -/
theorem pendingLights_scanStep (s : State) :
    pendingLights s.world (scanStep s).sstate = (pendingLights s.world s.sstate).tail := by
  cases hpending : pendingLights s.world s.sstate with
  | nil => rw [scanStep_of_pendingLights_nil hpending, hpending, List.tail_nil]
  | cons l rest =>
    obtain ⟨-, hrest, -⟩ := state_of_pendingLights_cons hpending
    rw [scanStep_of_pendingLights hpending, setScan_sstate, ← hrest, List.tail_cons]

@[simp] theorem scanStep_world (s : State) : (scanStep s).world = s.world := by
  obtain ⟨_, _, _, _, hframe⟩ := scanStep_frame s
  rw [hframe]

@[simp] theorem scanStep_params (s : State) : (scanStep s).params = s.params := by
  obtain ⟨_, _, _, _, hframe⟩ := scanStep_frame s
  rw [hframe]

theorem pendingLights_scanStep_of_cons {s : State} {l : Bool × Fin 25} {rest : List (Bool × Fin 25)}
    (hpending : pendingLights s.world s.sstate = l :: rest) :
    pendingLights (scanStep s).world (scanStep s).sstate = rest := by
  rw [scanStep_world, pendingLights_scanStep, hpending, List.tail_cons]

/-- The row bytes written before a sequencer step touch nothing of the block (R178). -/
theorem interleave_block (s : State) : (interleave s).world = s.world ∧ (interleave s).row = s.row ∧
    (interleave s).col = s.col ∧ (interleave s).sstate = s.sstate ∧ (interleave s).params = s.params := by
  obtain ⟨_, _, _, _, hframe, -⟩ := interleave_cases s
  rw [hframe]
  exact ⟨rfl, rfl, rfl, rfl, rfl⟩

/-- With no row byte waiting a step of the busy machine is the sequencer's (R178). -/
theorem scanTurn_of_outbox_nil {s : State} (hempty : s.outbox = []) : scanTurn s = scanStep s := by
  simp only [scanTurn, interleave, hempty]

/-- A step of the busy machine takes the next LIGHT off those left (R147). -/
theorem pendingLights_scanTurn (s : State) :
    pendingLights s.world (scanTurn s).sstate = (pendingLights s.world s.sstate).tail := by
  obtain ⟨hworld, -, -, hsstate, -⟩ := interleave_block s
  simpa [scanTurn, hworld, hsstate] using pendingLights_scanStep (interleave s)

/-! ### Where a step leads (R145, R146) -/

theorem scanNext_last {k : Fin 25} (hlast : k.val = 24) : scanNext k = .idle := dif_neg (by omega)

theorem scanNext_succ {j k : Fin 25} (hsucc : j.val = k.val + 1) : scanNext k = .cell j := by
  rw [scanNext, dif_pos (by omega)]
  exact congrArg ScanState.cell (Fin.ext hsucc.symm)

/-- Settles O27: in CELL(k) and DWELL(k) the next LIGHT is of cell `k`, and `next(k)` follows an off. -/
theorem sequencerCellAndDwellSteps : Obligations.SequencerCellAndDwellSteps := by
  intro s k hrst hreliable hempty hstate
  obtain ⟨on, hpending, hon⟩ := pendingLights_of_cell_or_dwell s.world hstate
  have hbusy : s.busy = true := by
    rw [busy_iff, Ne, ← pendingLights_eq_nil_iff s.world, hpending]
    exact List.cons_ne_nil _ _
  refine ⟨on, writeBit s.row (k.val / 5) on, writeBit s.col (k.val % 5) (!on), scanAfter (on, k), ?_, hon,
    fun i => getLsbD_writeBit_line s.row i (by omega) on, fun i => getLsbD_writeBit_line s.col i (by omega) (!on),
    fun honTrue => if_pos honTrue, fun hoff hlast => ?_, fun hoff j hj => ?_⟩
  · rw [step_busy hrst hbusy, scanTurn_of_outbox_nil hempty, scanStep_of_pendingLights hpending,
      driveCell_of_reliable _ _ _ _ hreliable]
    rfl
  · subst hoff
    exact scanNext_last hlast
  · subst hoff
    exact scanNext_succ hj

/-! ### One LED at a time (R149, R150) -/

theorem linesFollowScan_congr {s t : State} (hworld : t.world = s.world) (hrow : t.row = s.row) (hcol : t.col = s.col)
    (hsstate : t.sstate = s.sstate) : linesFollowScan t = linesFollowScan s := by
  simp only [linesFollowScan, State.linesIdle, hworld, hrow, hcol, hsstate]

/-- Outside a dwell, lines that follow the scan are idle lines (R149). -/
theorem linesFollowScan_of_not_dwell {s : State} (hsstate : ∀ k, s.sstate ≠ .dwell k) :
    linesFollowScan s = s.linesIdle := by
  unfold linesFollowScan
  cases h : s.sstate with
  | idle => rfl
  | cell k => rfl
  | dwell k => exact absurd h (hsstate k)

/-- In DWELL(k) only the LED of `k`, a live cell, is on (R150). -/
theorem linesFollowScan_dwell_iff {s : State} {k : Fin 25} (hsstate : s.sstate = .dwell k) :
    linesFollowScan s = true ↔ s.world.getLsbD k.val = true ∧ s.row = BitVec.twoPow 5 (cellRow k).val ∧
      s.col = ~~~(BitVec.twoPow 5 (cellCol k).val) := by
  simp [linesFollowScan, hsstate, and_assoc]

theorem scanNext_ne_dwell (k j : Fin 25) : scanNext k ≠ .dwell j := by
  unfold scanNext
  split <;> exact ScanState.noConfusion

/-- From idle lines an on leaves one line on and an off leaves none; the off of that one line leaves none (R142, R150). -/
theorem writeBit_row_idle : ∀ line : Fin 5, writeBit 0#5 line.val true = BitVec.twoPow 5 line.val ∧
    writeBit 0#5 line.val false = 0#5 ∧ writeBit (BitVec.twoPow 5 line.val) line.val false = 0#5 := by decide

/-- The same of the columns, whose lines are on when low (R142, R150). -/
theorem writeBit_col_idle : ∀ line : Fin 5, writeBit 0b11111#5 line.val false = ~~~(BitVec.twoPow 5 line.val) ∧
    writeBit 0b11111#5 line.val true = 0b11111#5 ∧
    writeBit (~~~(BitVec.twoPow 5 line.val)) line.val true = 0b11111#5 := by decide

/-- A LIGHT off of cell `k` leaves idle lines where they were idle or had the LED of `k` alone on (R150). -/
theorem writeBit_off_of_linesFollowScan {s : State} {k : Fin 25} (hfollow : linesFollowScan s = true)
    (hstate : s.sstate = .cell k ∨ s.sstate = .dwell k) : writeBit s.row (cellRow k).val false = 0#5 ∧
      writeBit s.col (cellCol k).val true = 0b11111#5 := by
  obtain ⟨-, hrowIdle, hrowLit⟩ := writeBit_row_idle (cellRow k)
  obtain ⟨-, hcolIdle, hcolLit⟩ := writeBit_col_idle (cellCol k)
  obtain hcell | hdwell := hstate
  · rw [linesFollowScan_of_not_dwell (by simp [hcell]), linesIdle_iff] at hfollow
    obtain ⟨hrow, hcol⟩ := hfollow
    exact ⟨by rw [hrow, hrowIdle], by rw [hcol, hcolIdle]⟩
  · obtain ⟨-, hrow, hcol⟩ := (linesFollowScan_dwell_iff hdwell).1 hfollow
    exact ⟨by rw [hrow, hrowLit], by rw [hcol, hcolLit]⟩

/-- A sequencer step keeps one LED at a time (R150). -/
theorem scanStep_linesFollowScan {s : State} (hreliable : s.params.lineWriteMayFail = false)
    (hfollow : linesFollowScan s = true) : linesFollowScan (scanStep s) = true := by
  cases hpending : pendingLights s.world s.sstate with
  | nil => rwa [scanStep_of_pendingLights_nil hpending]
  | cons l rest =>
    obtain ⟨on, k⟩ := l
    obtain ⟨hstate, -, hon⟩ := state_of_pendingLights_cons hpending
    rw [scanStep_of_pendingLights hpending, driveCell_of_reliable _ _ _ _ hreliable]
    cases on with
    | true =>
      obtain ⟨hcell, hlive⟩ := hon.1 rfl
      rw [linesFollowScan_of_not_dwell (by simp [hcell]), linesIdle_iff] at hfollow
      obtain ⟨hrow, hcol⟩ := hfollow
      obtain ⟨hrowOn, -⟩ := writeBit_row_idle (cellRow k)
      obtain ⟨hcolOn, -⟩ := writeBit_col_idle (cellCol k)
      refine (linesFollowScan_dwell_iff (k := k) rfl).2 ⟨hlive, ?_, ?_⟩
      · simp [hrow, hrowOn]
      · simp [hcol, hcolOn]
    | false =>
      rw [linesFollowScan_of_not_dwell (fun j => scanNext_ne_dwell k j), linesIdle_iff]
      exact writeBit_off_of_linesFollowScan hfollow hstate

/-- A step of the busy machine keeps one LED at a time (R150, R178). -/
theorem scanTurn_linesFollowScan {s : State} (hreliable : s.params.lineWriteMayFail = false)
    (hfollow : linesFollowScan s = true) : linesFollowScan (scanTurn s) = true := by
  obtain ⟨hworld, hrow, hcol, hsstate, hparams⟩ := interleave_block s
  exact scanStep_linesFollowScan (by rw [hparams]; exact hreliable)
    (by rw [linesFollowScan_congr hworld hrow hcol hsstate]; exact hfollow)

/-- A command that is no LIGHT, performed with the sequencer idle, keeps idle lines and does not dwell (R144, R150). -/
theorem afterInstr_linesFollowScan {i : Instr} {s : State} (hidle : s.sstate = .idle)
    (hlight : ∀ on row col, i ≠ .light on row col) (hfollow : linesFollowScan s = true) :
    linesFollowScan (afterInstr i s) = true := by
  obtain ⟨hrow, hcol, -⟩ := afterInstr_lines s hlight
  have hdwell (k : Fin 25) : (afterInstr i s).sstate ≠ .dwell k := by
    by_cases hscan : i = .scan
    · subst hscan
      exact ScanState.noConfusion
    · rw [afterInstr_sstate s hscan, hidle]
      exact ScanState.noConfusion
  rw [linesFollowScan_of_not_dwell (by simp [hidle]), linesIdle_iff] at hfollow
  rwa [linesFollowScan_of_not_dwell hdwell, linesIdle_iff, hrow, hcol]

theorem litCells_of_dwell {s : State} {k : Fin 25} (hfollow : linesFollowScan s = true) (hdwell : s.sstate = .dwell k) :
    litCells s = [k] := by
  obtain ⟨-, hrow, hcol⟩ := (linesFollowScan_dwell_iff hdwell).1 hfollow
  exact litCells_of_line_pair hrow hcol

theorem litCells_of_not_dwell {s : State} (hfollow : linesFollowScan s = true) (hsstate : ∀ k, s.sstate ≠ .dwell k) :
    litCells s = [] :=
  litCells_of_linesIdle (by rwa [linesFollowScan_of_not_dwell hsstate] at hfollow)

/-- Settles O31: whoever's turn it is, the lines follow the scan after the step; the lit set is read off them. -/
theorem oneLedAtATime : Obligations.OneLedAtATime := by
  refine ⟨fun s t hreliable hfollow hnoLight hstep => ?_, fun s hfollow =>
    ⟨fun k => litCells_of_dwell hfollow, litCells_of_not_dwell hfollow⟩⟩
  obtain ⟨-, rfl⟩ | ⟨-, -, rfl⟩ | ⟨-, hbusy, hvalid, i, hdec, rfl⟩ | ⟨-, -, -, _, -, rfl⟩ | ⟨-, -, -, rfl⟩ :=
    step_next_cases hstep
  · rfl
  · exact scanTurn_linesFollowScan hreliable hfollow
  · refine afterInstr_linesFollowScan ((not_busy_iff s).1 hbusy) (fun on row col hi => ?_) hfollow
    exact hnoLight hbusy hvalid on row col (hi ▸ hdec)
  · exact hfollow
  · obtain ⟨hworld, hrow, hcol, -, -, hsstate, -⟩ := driverStep_block s
    rwa [linesFollowScan_congr hworld hrow hcol hsstate]

/-! ### The length of the sweep (R147) -/

/-- `n` steps of the busy machine keep the world and take the next `n` LIGHTs off those left (R144, R147). -/
theorem pendingLights_iterate_scanTurn (n : Nat) (s : State) : (scanTurn^[n] s).world = s.world ∧
    pendingLights s.world (scanTurn^[n] s).sstate = (pendingLights s.world s.sstate).drop n := by
  induction n with
  | zero => exact ⟨rfl, rfl⟩
  | succ n ih =>
    obtain ⟨hworld, hleft⟩ := ih
    have htail := pendingLights_scanTurn (scanTurn^[n] s)
    rw [hworld, hleft, List.tail_drop] at htail
    rw [Function.iterate_succ_apply', scanTurn_world]
    exact ⟨hworld, htail⟩

theorem busy_iff_pendingLights (w : World) (s : State) : s.busy = true ↔ pendingLights w s.sstate ≠ [] := by
  rw [busy_iff, Ne, Ne, pendingLights_eq_nil_iff]

@[simp] theorem scanTurn_rst (s : State) : (scanTurn s).rst = s.rst := by
  obtain ⟨_, _, _, _, _, _, hframe⟩ := scanTurn_frame s
  rw [hframe]

/-- A run of one step more goes on from the step's next state. -/
theorem run_succ_of_step {s t : State} (hstep : step s = .next t) (n : Nat) :
    Host.Core.run core (n + 1) s = Host.Core.run core n t := by
  have hcore : core.step s = .next t := hstep
  simp only [Host.Core.run, hcore]

/-- While LIGHTs are left the machine's steps are those of the sequencer (R145, R146). -/
theorem run_scanTurn {s : State} (hrst : s.rst = false) {n : Nat} (hn : n ≤ (pendingLights s.world s.sstate).length) :
    Host.Core.run core n s = .next (scanTurn^[n] s) := by
  induction n generalizing s with
  | zero => rfl
  | succ n ih =>
    have hbusy : s.busy = true := (busy_iff_pendingLights s.world s).2 (List.ne_nil_of_length_pos (by omega))
    have hrest : n ≤ (pendingLights (scanTurn s).world (scanTurn s).sstate).length := by
      rw [scanTurn_world, pendingLights_scanTurn, List.length_tail]
      omega
    rw [run_succ_of_step (step_busy hrst hbusy)]
    exact ih (by rw [scanTurn_rst]; exact hrst) hrest

/-- A state in which SCAN is accepted runs on from CELL(0) (R144). -/
theorem run_accepted_scan {s : State} (hrst : s.rst = false) (hbusy : s.busy = false) (hvalid : s.cmdValid = true)
    (hcmd : s.cmd = encode .scan) {n : Nat} (hn : n ≤ (lightSequence s.world).length) :
    Host.Core.run core (n + 1) s = .next (scanTurn^[n] (startScan (takeCommand s))) := by
  rw [run_succ_of_step ((step_accept hrst hbusy hvalid (by rw [hcmd, decode_encode])).trans (exec_eq .scan _))]
  exact run_scanTurn (s := startScan (takeCommand s)) hrst hn

/-- After the accepting step and `n` more a SCAN has the LIGHT sequence from the `n`-th on before it (R147, R148). -/
theorem pendingLights_of_accepted_scan (n : Nat) (s : State) :
    pendingLights s.world (scanTurn^[n] (startScan (takeCommand s))).sstate = (lightSequence s.world).drop n := by
  obtain ⟨-, hleft⟩ := pendingLights_iterate_scanTurn n (startScan (takeCommand s))
  exact hleft

theorem length_flatMap_cellLights (w : World) (ks : List (Fin 25)) :
    (ks.flatMap (cellLights w)).length = ks.length + (ks.filter fun k => w.getLsbD k.val).length := by
  induction ks with
  | nil => rfl
  | cons k ks ih =>
    rw [List.flatMap_cons, List.length_append, ih, List.filter_cons, List.length_cons]
    cases hlive : w.getLsbD k.val with
    | true => rw [cellLights_of_live hlive, if_pos rfl]; simp only [List.length_cons, List.length_nil]; omega
    | false => rw [cellLights_of_dead hlive, if_neg Bool.false_ne_true]; simp only [List.length_singleton]; omega

/-- The number of live cells, counted over the cells (R147). -/
theorem liveCells_eq (w : World) : liveCells w = ((List.finRange 25).filter fun k => w.getLsbD k.val).length := by
  rw [liveCells, ← List.map_coe_finRange_eq_range, List.filter_map, List.length_map]
  rfl

/-- A sweep has one LIGHT for each cell and one more for each live cell (R147, R148). -/
theorem length_lightSequence (w : World) : (lightSequence w).length = 25 + liveCells w := by
  rw [liveCells_eq]
  exact length_flatMap_cellLights w (List.finRange 25)

/-- Settles O28: the accepting step starts the sweep, and each step after it takes one LIGHT off. -/
theorem scanTakesTwentySixPlusLiveSteps : Obligations.ScanTakesTwentySixPlusLiveSteps := by
  intro s hrst hbusy hvalid hcmd n hn
  cases n with
  | zero => exact ⟨s, rfl, rfl, fun h => absurd h (by decide)⟩
  | succ n =>
    have hlength := length_lightSequence s.world
    obtain ⟨hworld, -⟩ := pendingLights_iterate_scanTurn n (startScan (takeCommand s))
    refine ⟨_, run_accepted_scan hrst hbusy hvalid hcmd (by omega), hworld, fun _ => ?_⟩
    rw [busy_iff_pendingLights s.world, pendingLights_of_accepted_scan, Ne, List.drop_eq_nil_iff]
    omega

/-! ### The lines at the end of the sweep (R149) -/

/-- Every line that no LIGHT of a list switches stands at `idle`; `line` is the line a cell is on. -/
def OtherLinesAt (idle : Bool) (line : Fin 25 → Fin 5) (lights : List (Bool × Fin 25)) (v : Lines) : Prop :=
  ∀ i : Fin 5, (∀ l ∈ lights, line l.2 ≠ i) → v.getLsbD i.val = idle

/-- Performing the next LIGHT keeps it, since an on is followed by the off of its cell. -/
theorem OtherLinesAt.writeBit {idle : Bool} {line : Fin 25 → Fin 5} {l : Bool × Fin 25} {rest : List (Bool × Fin 25)}
    {v : Lines} (h : OtherLinesAt idle line (l :: rest) v) (hoff : l.1 = true → (false, l.2) ∈ rest) :
    OtherLinesAt idle line rest (writeBit v (line l.2).val (l.1 ^^ idle)) := by
  intro i hi
  rw [getLsbD_writeBit_line v i (line l.2).isLt]
  by_cases hline : line l.2 = i
  · have hfalse : l.1 = false := Bool.eq_false_iff.2 fun hon => hi _ (hoff hon) hline
    simp [hline, hfalse]
  · rw [if_neg fun h => hline (Fin.ext h.symm)]
    exact h i (List.forall_mem_cons.2 ⟨hline, hi⟩)

/-- The sweep switches every line on which there is a cell. -/
theorem otherLinesAt_lightSequence (idle : Bool) {line : Fin 25 → Fin 5} (hline : ∀ i, ∃ k, line k = i) (w : World)
    (v : Lines) : OtherLinesAt idle line (lightSequence w) v := by
  intro i hi
  obtain ⟨k, hk⟩ := hline i
  refine absurd hk (hi (false, k) (List.mem_flatMap.2 ⟨k, List.mem_finRange k, ?_⟩))
  split <;> simp

/-- Line writes take effect, and every line that the rest of the sweep does not switch is idle. -/
def SweptLinesIdle (s : State) : Prop :=
  s.params.lineWriteMayFail = false ∧ OtherLinesAt false cellRow (pendingLights s.world s.sstate) s.row ∧
  OtherLinesAt true cellCol (pendingLights s.world s.sstate) s.col

/-- An on is followed by the off of its cell (R145, R146). -/
theorem off_mem_of_on {w : World} {v : ScanState} {l : Bool × Fin 25} {rest : List (Bool × Fin 25)}
    (hpending : pendingLights w v = l :: rest) (hon : l.1 = true) : (false, l.2) ∈ rest := by
  obtain ⟨-, rfl, -⟩ := state_of_pendingLights_cons hpending
  rw [scanAfter, if_pos hon]
  exact List.mem_cons_self

theorem scanStep_sweptLinesIdle {s : State} (h : SweptLinesIdle s) : SweptLinesIdle (scanStep s) := by
  obtain ⟨hreliable, hrow, hcol⟩ := h
  rw [SweptLinesIdle, scanStep_world, scanStep_params, pendingLights_scanStep]
  cases hpending : pendingLights s.world s.sstate with
  | nil =>
    rw [hpending] at hrow hcol
    rw [scanStep_of_pendingLights_nil hpending]
    exact ⟨hreliable, hrow, hcol⟩
  | cons l rest =>
    rw [hpending] at hrow hcol
    rw [scanStep_of_pendingLights hpending, driveCell_of_reliable _ _ _ _ hreliable]
    refine ⟨hreliable, ?_, ?_⟩
    · simpa using hrow.writeBit (off_mem_of_on hpending)
    · simpa using hcol.writeBit (off_mem_of_on hpending)

theorem scanTurn_sweptLinesIdle {s : State} (h : SweptLinesIdle s) : SweptLinesIdle (scanTurn s) := by
  obtain ⟨hworld, hrow, hcol, hsstate, hparams⟩ := interleave_block s
  refine scanStep_sweptLinesIdle ?_
  rw [SweptLinesIdle, hworld, hrow, hcol, hsstate, hparams]
  exact h

/-- An idle sequencer has no line left to switch, so that all are idle (R149). -/
theorem linesIdle_of_sweptLinesIdle {s : State} (h : SweptLinesIdle s) (hidle : s.sstate = .idle) : s.linesIdle = true := by
  obtain ⟨-, hrow, hcol⟩ := h
  rw [hidle] at hrow hcol
  refine (linesIdle_iff s).2 ⟨lines_ext fun i => ?_, lines_ext fun i => ?_⟩
  · exact (hrow i fun _ hl => absurd hl List.not_mem_nil).trans (by simp)
  · exact (hcol i fun _ hl => absurd hl List.not_mem_nil).trans (by revert i; decide)

/-- Settles O29: every line is switched off by the last LIGHT of the sweep that names it. -/
theorem scanEndsWithIdleLines : Obligations.ScanEndsWithIdleLines := by
  intro s hrst hbusy hvalid hcmd hreliable
  have hlength := length_lightSequence s.world
  have hstart : SweptLinesIdle (startScan (takeCommand s)) :=
    ⟨hreliable, otherLinesAt_lightSequence false (fun r => ⟨cellIndex r 0, cellRow_cellIndex r 0⟩) s.world s.row,
      otherLinesAt_lightSequence true (fun c => ⟨cellIndex 0 c, cellCol_cellIndex 0 c⟩) s.world s.col⟩
  have hidle : (scanTurn^[25 + liveCells s.world] (startScan (takeCommand s))).sstate = .idle := by
    rw [← pendingLights_eq_nil_iff s.world, pendingLights_of_accepted_scan]
    exact List.drop_eq_nil_of_le hlength.le
  refine ⟨_, ?_, linesIdle_of_sweptLinesIdle ?_ hidle, hidle⟩
  · rw [show 26 + liveCells s.world = 25 + liveCells s.world + 1 by omega]
    exact run_accepted_scan hrst hbusy hvalid hcmd hlength.ge
  · exact Function.Iterate.rec SweptLinesIdle hstart (fun _ => scanTurn_sweptLinesIdle) _

/-! ### The sweep as its LIGHT sequence (R148) -/

/-! A line write neither reads nor writes `sstate`. -/

theorem lineOk_setScan (v : ScanState) (s : State) : lineOk (setScan v s) = ((lineOk s).1, setScan v (lineOk s).2) := by
  unfold lineOk
  rw [setScan_params]
  split <;> rfl

theorem writeRow_setScan (r : Fin 5) (on : Bool) (v : ScanState) (s : State) :
    writeRow r on (setScan v s) = setScan v (writeRow r on s) := by
  simp only [writeRow, lineOk_setScan]
  split <;> rfl

theorem writeCol_setScan (c : Fin 5) (on : Bool) (v : ScanState) (s : State) :
    writeCol c on (setScan v s) = setScan v (writeCol c on s) := by
  simp only [writeCol, lineOk_setScan]
  split <;> rfl

theorem driveCell_setScan (r c : Fin 5) (on : Bool) (v : ScanState) (s : State) :
    driveCell r c on (setScan v s) = setScan v (driveCell r c on s) := by
  rw [driveCell, writeRow_setScan, writeCol_setScan, driveCell]

theorem performLights_setScan (lights : List (Bool × Fin 25)) (v : ScanState) (s : State) :
    performLights lights (setScan v s) = setScan v (performLights lights s) := by
  induction lights generalizing s with
  | nil => rfl
  | cons l lights ih => exact (congrArg (performLights lights) (driveCell_setScan _ _ _ v s)).trans (ih _)

/-- `n` steps of the sequencer perform the next `n` LIGHTs and leave the others. -/
theorem scanSteps_eq_performLights {n : Nat} {s : State} (hn : n ≤ (pendingLights s.world s.sstate).length) :
    ∃ v, scanSteps n s = setScan v (performLights ((pendingLights s.world s.sstate).take n) s) ∧
      pendingLights s.world v = (pendingLights s.world s.sstate).drop n := by
  induction n generalizing s with
  | zero => exact ⟨s.sstate, rfl, rfl⟩
  | succ n ih =>
    obtain ⟨l, rest, hpending⟩ := List.exists_cons_of_length_pos (Nat.zero_lt_of_lt hn)
    have hrest := pendingLights_scanStep_of_cons hpending
    rw [hpending, List.length_cons] at hn
    obtain ⟨v, hsteps, hleft⟩ := ih (s := scanStep s) (by rw [hrest]; omega)
    rw [hrest] at hsteps hleft
    rw [hpending]
    refine ⟨v, ?_, by rw [← scanStep_world s]; exact hleft⟩
    rw [scanSteps, hsteps, scanStep_of_pendingLights hpending, performLights_setScan]
    rfl

/-- Settles O30: from CELL(0) the LIGHTs left are the whole sequence. -/
theorem sweepIsItsLightSequence : Obligations.SweepIsItsLightSequence := by
  intro s hcell n hn
  have hpending := pendingLights_of_cell_zero hcell
  obtain ⟨v, hsteps, hleft⟩ := scanSteps_eq_performLights (n := n) (s := s) (by rw [hpending]; exact hn)
  rw [hpending] at hsteps hleft
  refine ⟨v, hsteps, ?_⟩
  rw [← pendingLights_eq_nil_iff s.world, hleft, List.drop_eq_nil_iff]
  omega

/-! ### What the sweep shows (R151) -/

/-- The cells that a list of LIGHTs sets on, in order. -/
def cellsSetOn (lights : List (Bool × Fin 25)) : List (Fin 25) := (lights.filter fun l => l.1).map Prod.snd

theorem cellsSetOn_append (first later : List (Bool × Fin 25)) :
    cellsSetOn (first ++ later) = cellsSetOn first ++ cellsSetOn later := by simp [cellsSetOn]

theorem cellsSetOn_flatMap_cellLights (w : World) (ks : List (Fin 25)) :
    cellsSetOn (ks.flatMap (cellLights w)) = ks.filter fun k => w.getLsbD k.val := by
  induction ks with
  | nil => rfl
  | cons k ks ih =>
    rw [List.flatMap_cons, cellsSetOn_append, ih, List.filter_cons]
    cases hlive : w.getLsbD k.val with
    | true => rw [cellLights_of_live hlive]; rfl
    | false => rw [cellLights_of_dead hlive]; rfl

/-- After a LIGHT of the sweep its cell alone is lit, or none after an off (R150). -/
theorem litCells_scanStep {s : State} (hreliable : s.params.lineWriteMayFail = false) (hfollow : linesFollowScan s = true)
    {l : Bool × Fin 25} {rest : List (Bool × Fin 25)} (hpending : pendingLights s.world s.sstate = l :: rest) :
    litCells (scanStep s) = cellsSetOn [l] := by
  obtain ⟨on, k⟩ := l
  have hfollow' := scanStep_linesFollowScan hreliable hfollow
  have hsstate : (scanStep s).sstate = scanAfter (on, k) := by rw [scanStep_of_pendingLights hpending]; rfl
  cases on with
  | true => exact litCells_of_dwell hfollow' hsstate
  | false => exact litCells_of_not_dwell hfollow' fun j hj => scanNext_ne_dwell k j (hsstate.symm.trans hj)

/-- The lit cells of all the states from `s` to the end of its sweep: those lit in `s`, then those still to be set on. -/
theorem flatMap_litCells_scanSteps {n : Nat} {s : State} (hn : n = (pendingLights s.world s.sstate).length)
    (hreliable : s.params.lineWriteMayFail = false) (hfollow : linesFollowScan s = true) :
    (List.range (n + 1)).flatMap (fun n => litCells (scanSteps n s)) =
      litCells s ++ cellsSetOn (pendingLights s.world s.sstate) := by
  induction n generalizing s with
  | zero =>
    rw [List.eq_nil_of_length_eq_zero hn.symm]
    simp [cellsSetOn, scanSteps]
  | succ n ih =>
    obtain ⟨l, rest, hpending⟩ := List.exists_cons_of_length_eq_add_one hn.symm
    have hrest := pendingLights_scanStep_of_cons hpending
    have hlater := ih (s := scanStep s) (by rw [hrest]; simpa [hpending] using hn)
      (by rw [scanStep_params]; exact hreliable) (scanStep_linesFollowScan hreliable hfollow)
    rw [hrest, litCells_scanStep hreliable hfollow hpending] at hlater
    rw [List.range_succ_eq_map, List.flatMap_cons, List.flatMap_map, hpending]
    exact congrArg (litCells s ++ ·) (hlater.trans (cellsSetOn_append [l] rest).symm)

/-- Settles O32: from idle lines nothing is lit at the start, and the sequence sets on the live cells in order. -/
theorem paintShowsExactlyTheLiveCells : Obligations.PaintShowsExactlyTheLiveCells := by
  intro s hcell hidle hreliable
  have hpending := pendingLights_of_cell_zero hcell
  have hfollow : linesFollowScan s = true := by rwa [linesFollowScan_of_not_dwell (by simp [hcell])]
  have hlength : 25 + liveCells s.world = (pendingLights s.world s.sstate).length := by
    rw [hpending, length_lightSequence]
  rw [show 26 + liveCells s.world = 25 + liveCells s.world + 1 by omega,
    flatMap_litCells_scanSteps hlength hreliable hfollow, litCells_of_linesIdle hidle, hpending]
  exact cellsSetOn_flatMap_cellLights s.world (List.finRange 25)

end Sys2Proof.Machine
end

section
/-! Frame controller (42_frame_controller.md), the run of the frame sequence: each kind of turn keeps `FrameRun`. -/

namespace Sys2Proof.Machine

/-! ### The command issued at a point (R183) -/

theorem issuedAt_eq_scan_iff (p : FramePoint) : issuedAt p = some .scan ↔ p = .f7Done := by
  cases p <;> decide

/-- The frame controller issues no LIGHT (R183). -/
theorem issuedAt_ne_light (p : FramePoint) (on : Bool) (row col : BitVec 3) : issuedAt p ≠ some (.light on row col) := by
  cases p <;> simp [issuedAt]

/-- In a run of the frame sequence a presented word is that of the command issued at the point (R183). -/
theorem exists_issuedAt_of_frameRun {s : State} (h : FrameRun s) (hvalid : s.cmdValid = true) :
    ∃ i, issuedAt s.point = some i ∧ decode s.cmd = .command i := by
  obtain ⟨-, -, -, -, hpresented, -, -, -⟩ := h
  obtain ⟨i, hissued, hword⟩ := Option.map_eq_some_iff.1 (hpresented hvalid)
  exact ⟨i, hissued, by rw [← hword, decode_encode]⟩

/-! ### The turns of the block -/

theorem applyReset_frameRun {s : State} (h : FrameRun s) : FrameRun (applyReset s) := by
  obtain ⟨hdriver, hreliable, -⟩ := h
  exact ⟨hdriver, hreliable, rfl, rfl, Bool.noConfusion, fun hbusy => absurd rfl ((busy_iff _).1 hbusy), rfl,
    fun hne => absurd rfl hne⟩

/-- A step of the busy machine writes some of the row bytes, and what is left still ends the rendering (R178). -/
theorem scanTurn_frameRun {s : State} (h : FrameRun s) (hbusy : s.busy = true) : FrameRun (scanTurn s) := by
  obtain ⟨hdriver, hreliable, hill, hillCmd, -, hinF7, hfollow, houtbox⟩ := h
  obtain ⟨hpoint, hvalid⟩ := hinF7 hbusy
  have hfollow' := scanTurn_linesFollowScan hreliable hfollow
  obtain ⟨n, _, _, _, _, _, hframe⟩ := scanTurn_frame s
  rw [hframe] at hfollow' ⊢
  refine ⟨hdriver, hreliable, hill, hillCmd, fun hpresented => by simp [hvalid] at hpresented, fun _ => ⟨hpoint, hvalid⟩,
    hfollow', fun hne => ?_⟩
  obtain ⟨-, hsuffix⟩ := houtbox fun hempty => hne (by simp [hempty])
  exact ⟨hpoint, (List.drop_suffix n s.outbox).trans hsuffix⟩

/-- The accepted command is the issued one: only F7's SCAN makes the sequencer busy, and it keeps the world (R183). -/
theorem afterInstr_frameRun {s : State} {i : Instr} (h : FrameRun s) (hbusy : s.busy = false)
    (hissued : issuedAt s.point = some i) : FrameRun (afterInstr i (takeCommand s)) := by
  obtain ⟨hdriver, hreliable, hill, hillCmd, -, -, hfollow, houtbox⟩ := h
  have hidle : (takeCommand s).sstate = .idle := (not_busy_iff s).1 hbusy
  have hscan : i = .scan ↔ s.point = .f7Done := by rw [← issuedAt_eq_scan_iff, hissued, Option.some_inj]
  have hinF7 : (afterInstr i (takeCommand s)).busy = true → s.point = .f7Done := by
    refine fun hbusy' => hscan.1 (by_contra fun hne => ?_)
    exact (busy_iff _).1 hbusy' ((afterInstr_sstate _ hne).trans hidle)
  have hworld (hpoint : s.point = .f7Done) : (afterInstr i (takeCommand s)).world = s.world :=
    afterInstr_world _ (.inr (.inl (hscan.2 hpoint)))
  have hfollow' : linesFollowScan (afterInstr i (takeCommand s)) = true :=
    afterInstr_linesFollowScan hidle (fun on row col hi => issuedAt_ne_light s.point on row col (hi ▸ hissued)) hfollow
  obtain ⟨_, _, _, _, _, hframe⟩ := afterInstr_frame i (takeCommand s)
  rw [hframe] at hinF7 hworld hfollow' ⊢
  refine ⟨hdriver, hreliable, hill, hillCmd, Bool.noConfusion, fun hbusy' => ⟨hinF7 hbusy', rfl⟩, hfollow', fun hne => ?_⟩
  obtain ⟨hpoint, hsuffix⟩ := houtbox hne
  exact ⟨hpoint, (congrArg renderRows (hworld hpoint)).symm ▸ hsuffix⟩

/-! ### The turn of the host -/

/-- What the host's updates of its own registers leave alone: `cmd_valid` and the row bytes still to write. -/
def portAndOutbox (s : State) : Bool × List Byte := (s.cmdValid, s.outbox)

@[simp] theorem portAndOutbox_goTo (p : FramePoint) (s : State) : portAndOutbox (goTo p s) = portAndOutbox s := rfl

@[simp] theorem portAndOutbox_tick (s : State) : portAndOutbox (tick s) = portAndOutbox s := rfl

@[simp] theorem portAndOutbox_resetTick (s : State) : portAndOutbox (resetTick s) = portAndOutbox s := rfl

@[simp] theorem portAndOutbox_pressedA (s : State) : portAndOutbox (pressedA s).2 = portAndOutbox s := rfl

@[simp] theorem portAndOutbox_sampleB (s : State) : portAndOutbox (sampleB s).2 = portAndOutbox s := by
  obtain ⟨_, _, hsample, -⟩ := sampleB_cases s
  rw [hsample]; rfl

@[simp] theorem portAndOutbox_releaseA (s : State) : portAndOutbox (releaseA s) = portAndOutbox s := by
  obtain ⟨_, _, hrelease, -⟩ := releaseA_cases s
  rw [hrelease]; rfl

@[simp] theorem portAndOutbox_afterGeneration (s : State) : portAndOutbox (afterGeneration s) = portAndOutbox s := by
  obtain ⟨_, _, hafter, -⟩ := afterGeneration_cases s
  rw [hafter]; rfl

@[simp] theorem portAndOutbox_afterPressA (s : State) : portAndOutbox (afterPressA s) = portAndOutbox s := by
  obtain ⟨_, _, hafter, -⟩ := afterPressA_cases s
  rw [hafter]; rfl

@[simp] theorem portAndOutbox_afterPressB (s : State) : portAndOutbox (afterPressB s) = portAndOutbox s := by
  obtain ⟨_, _, hafter, -⟩ := afterPressB_cases s
  rw [hafter]; rfl

@[simp] theorem portAndOutbox_cooldown (s : State) : portAndOutbox (cooldown s) = portAndOutbox s := by
  unfold cooldown
  split <;> rfl

@[simp] theorem portAndOutbox_finishPaint (s : State) : portAndOutbox (finishPaint s) = (s.cmdValid, []) := by
  obtain ⟨_, _, hpaint, -⟩ := finishPaint_cases s
  rw [hpaint]; rfl

/-- What a host action does to the port and to the row bytes: it presents nothing, or the command that its next point
waits for; and it leaves the row bytes, except that F7 fills and empties them (R178, R183). -/
theorem hostStep_cases (s : State) :
    ((hostStep s).cmdValid = s.cmdValid ∨ (issuedAt (hostStep s).point).map encode = some (hostStep s).cmd) ∧
    (((hostStep s).outbox = s.outbox ∧ s.point ≠ .f7Done) ∨ (hostStep s).outbox = [] ∨
      ((hostStep s).point = .f7Done ∧ (hostStep s).outbox = renderRows s.world)) := by
  have kept {t : State} {p : FramePoint} (hkept : portAndOutbox t = portAndOutbox s) (hne : p ≠ .f7Done) :
      (t.cmdValid = s.cmdValid ∨ (issuedAt t.point).map encode = some t.cmd) ∧
      ((t.outbox = s.outbox ∧ p ≠ .f7Done) ∨ t.outbox = [] ∨
        (t.point = .f7Done ∧ t.outbox = renderRows s.world)) := by
    obtain ⟨hvalid, houtbox⟩ := Prod.mk.inj hkept
    exact ⟨.inl hvalid, .inl ⟨houtbox, hne⟩⟩
  unfold hostStep
  cases hpoint : s.point with
  | boot | f3Issue | f5Issue => exact ⟨.inr rfl, .inl ⟨rfl, FramePoint.noConfusion⟩⟩
  | f2 =>
    cases hdue : generationDue s with
    | true => exact ⟨.inr rfl, .inl ⟨rfl, FramePoint.noConfusion⟩⟩
    | false => exact kept rfl FramePoint.noConfusion
  | f2Stepped =>
    cases hstagnant : stagnant (afterGeneration s) with
    | true =>
      obtain ⟨-, houtbox⟩ := Prod.mk.inj (portAndOutbox_afterGeneration s)
      simp only [hstagnant, if_true]
      exact ⟨.inr rfl, .inl ⟨houtbox, FramePoint.noConfusion⟩⟩
    | false => exact kept (by simp [hstagnant]) FramePoint.noConfusion
  | f7 =>
    refine ⟨.inr rfl, .inr ?_⟩
    cases hupdate : s.updateSerial with
    | true => exact .inr ⟨rfl, by simp [hupdate]⟩
    | false => exact .inl (by simp [hupdate])
  | f7Done =>
    obtain ⟨hvalid, houtbox⟩ := Prod.mk.inj (portAndOutbox_finishPaint s)
    exact ⟨.inl hvalid, .inr (.inl houtbox)⟩
  | bootDone | f1 | f2Done | f3 | f3Delay | f3Done | f4 | f5 | f5Delay | f5Done | f6 =>
    exact kept (by simp) FramePoint.noConfusion

theorem driverStep_of_frameController {s : State} (hdriver : s.driver = .frameController) :
    driverStep s = hostStep s := by
  simp only [driverStep, hdriver]

/-- The host acts with the port idle and the sequencer idle, so what it presents is its own command, and row bytes are
left only after F7 has filled them (R178, R183). -/
theorem hostStep_frameRun {s : State} (h : FrameRun s) (hbusy : s.busy = false) (hvalid : s.cmdValid = false) :
    FrameRun (hostStep s) := by
  obtain ⟨hdriver, hreliable, hill, hillCmd, -, -, hfollow, houtbox⟩ := h
  obtain ⟨hworld, hrow, hcol, hill', hillCmd', hsstate, -, hdriver', hparams⟩ := hostStep_block s
  obtain ⟨hport, hbytes⟩ := hostStep_cases s
  refine ⟨hdriver'.trans hdriver, by rw [hparams, hreliable], hill'.trans hill, hillCmd'.trans hillCmd,
    fun hpresented => ?_, fun hbusy' => ?_, by rwa [linesFollowScan_congr hworld hrow hcol hsstate], fun hne => ?_⟩
  · exact hport.resolve_left fun hkept => by simp [hkept, hvalid] at hpresented
  · exact absurd (hsstate.trans ((not_busy_iff s).1 hbusy)) ((busy_iff _).1 hbusy')
  · obtain ⟨hkept, hpoint⟩ | hempty | ⟨hpoint, hfilled⟩ := hbytes
    · exact absurd (houtbox (hkept ▸ hne)).1 hpoint
    · exact absurd hempty hne
    · exact ⟨hpoint, by rw [hfilled, hworld]⟩

/-- Settles O41: whoever's turn it is, the run goes on. An illegal word cannot be accepted, since the host presents only
words of commands. -/
theorem everyStepKeepsFrameRun : Obligations.EveryStepKeepsFrameRun := by
  intro s t h hstep
  obtain ⟨-, rfl⟩ | ⟨-, hbusy, rfl⟩ | ⟨-, hbusy, hvalid, i, hdec, rfl⟩ | ⟨-, -, hvalid, why, hdec, rfl⟩ |
    ⟨-, hbusy, hvalid, rfl⟩ := step_next_cases hstep
  · exact applyReset_frameRun h
  · exact scanTurn_frameRun h hbusy
  · obtain ⟨j, hissued, hdec'⟩ := exists_issuedAt_of_frameRun h hvalid
    obtain rfl : i = j := Decoded.command.inj (hdec.symm.trans hdec')
    exact afterInstr_frameRun h hbusy hissued
  · obtain ⟨_, -, hdec'⟩ := exists_issuedAt_of_frameRun h hvalid
    exact Decoded.noConfusion (hdec.symm.trans hdec')
  · rw [driverStep_of_frameController h.1]
    exact hostStep_frameRun h hbusy hvalid

end Sys2Proof.Machine
end

section
/-! Frame controller (42_frame_controller.md), section 3: what an emission writes, and the layout of the rendering. -/

namespace Sys2Proof.Machine

/-! ### Byte writes that may be lost (R182) -/

/-- Answer `n` of the serial draws to come (R10, R182). -/
def serialAnswer (s : State) (n : Nat) : Bool :=
  (s.env.serialOk.queued[n]?).getD (Config.freeSerialOk (s.env.serialOk.taken + n))

/-- `n` serial draws taken (R10, R182). -/
def takeSerialDraws (n : Nat) (s : State) : State :=
  { s with env := { s.env with serialOk := ⟨s.env.serialOk.queued.drop n, s.env.serialOk.taken + n⟩ } }

/-- Of `bytes`, those whose index `ok` keeps, in order. -/
def keptBytes (ok : Nat → Bool) (bytes : List Byte) : List Byte := (bytes.zipIdx.filter fun b => ok b.2).map Prod.fst

theorem keptBytes_cons (ok : Nat → Bool) (b : Byte) (rest : List Byte) :
    keptBytes ok (b :: rest) = (if ok 0 then [b] else []) ++ keptBytes (fun n => ok (n + 1)) rest := by
  have hshift : ((rest.zipIdx 1).filter fun b => ok b.2).map Prod.fst = keptBytes (fun n => ok (n + 1)) rest := by
    rw [List.zipIdx_succ, List.filter_map, List.map_map]
    rfl
  rw [keptBytes, List.zipIdx_cons, List.filter_cons]
  cases hok : ok 0 <;> simpa [hok] using hshift

theorem writeSerial_of_drop {s : State} (hdrop : s.params.serialMayDrop = true) (b : Byte) : writeSerial b s =
    { takeSerialDraws 1 s with serial := s.serial ++ if serialAnswer s 0 then [b] else [] } := by
  have hok : serialOk s = (serialAnswer s 0, takeSerialDraws 1 s) := by
    simp only [serialOk, hdrop, if_true, drawFrom_eq]
    rfl
  rw [writeSerial, hok]
  cases serialAnswer s 0 with
  | false => simp [takeSerialDraws]
  | true => rfl

theorem emit_of_drop {s : State} (hdrop : s.params.serialMayDrop = true) (bytes : List Byte) : emit bytes s =
    { takeSerialDraws bytes.length s with serial := s.serial ++ keptBytes (serialAnswer s) bytes } := by
  induction bytes generalizing s with
  | nil => simp [emit, keptBytes, takeSerialDraws]
  | cons b rest ih =>
    have hfirst := writeSerial_of_drop hdrop b
    have hlater (n : Nat) : serialAnswer (writeSerial b s) n = serialAnswer s (n + 1) := by
      rw [hfirst]
      simp [serialAnswer, takeSerialDraws, Nat.add_comm, Nat.add_left_comm]
    rw [emit, ih (by rw [hfirst]; exact hdrop), funext hlater, keptBytes_cons, hfirst]
    simp [takeSerialDraws, Nat.add_comm, Nat.add_assoc]

theorem emit_of_no_drop {s : State} (hdrop : s.params.serialMayDrop = false) (bytes : List Byte) :
    emit bytes s = { s with serial := s.serial ++ bytes } := by
  obtain ⟨_, _, hframe, -, hall⟩ := emit_cases bytes s
  obtain ⟨rfl, rfl⟩ := hall hdrop
  exact hframe

/-- Settles O50: the two laws of an emission. -/
theorem serialIsBestEffort : Obligations.SerialIsBestEffort :=
  fun bytes _ => ⟨fun hdrop => emit_of_no_drop hdrop bytes, fun hdrop => emit_of_drop hdrop bytes⟩

/-! ### The rendering (R181) -/

/-- Item `i` of block `k`, where every block is `n` long. -/
theorem getElem?_flatMap_of_length {α β : Type} {n i : Nat} {f : α → List β} (hlength : ∀ a, (f a).length = n)
    (hi : i < n) (as : List α) (k : Nat) : (as.flatMap f)[n * k + i]? = as[k]?.bind fun a => (f a)[i]? := by
  induction as generalizing k with
  | nil => simp
  | cons a as ih =>
    rw [List.flatMap_cons]
    cases k with
    | zero => rw [Nat.mul_zero, Nat.zero_add, List.getElem?_append_left (by rw [hlength]; exact hi)]; rfl
    | succ k =>
      have hindex : n * (k + 1) + i = n + (n * k + i) := by rw [Nat.mul_succ]; omega
      rw [hindex, List.getElem?_append_right (by rw [hlength]; omega), hlength, Nat.add_sub_cancel_left, ih,
        List.getElem?_cons_succ]

theorem length_renderRow (w : World) (r : Fin 5) : (renderRow w r).length = 7 := rfl

/-- Byte `i` of line `r` of the rendering (R181). -/
theorem getElem?_renderRows (w : World) (r : Fin 5) {i : Nat} (hi : i < 7) :
    (renderRows w)[7 * r.val + i]? = (renderRow w r)[i]? := by
  rw [renderRows, getElem?_flatMap_of_length (length_renderRow w) hi]
  simp

theorem getElem?_renderRow (w : World) (r c : Fin 5) : (renderRow w r)[c.val]? = some (cellByte (cellAt w r c)) := by
  rw [renderRow, List.getElem?_append_left (by simp)]
  simp

/-- Settles O49, line by line. -/
theorem renderingLayout : Obligations.RenderingLayout := by
  refine fun w => ⟨rfl, fun r c => ⟨?_, ?_, ?_⟩⟩
  · rw [getElem?_renderRows w r (by omega), getElem?_renderRow, cellByte]
  · rw [getElem?_renderRows w r (by decide)]; rfl
  · rw [getElem?_renderRows w r (by decide)]; rfl

/-! ### Runs that write given bytes (R191) -/

@[simp] theorem emit_params (bytes : List Byte) (s : State) : (emit bytes s).params = s.params := by
  obtain ⟨_, _, hframe, -⟩ := emit_cases bytes s
  rw [hframe]

/-- From `s` to `t` exactly `bytes` are written to the serial line, and the parameters stay: `sends` in a form that
composes. -/
def Emits (bytes : List Byte) (s t : State) : Prop :=
  t.serial = (emit bytes s).serial ∧ t.env.serialOk = (emit bytes s).env.serialOk ∧ t.params = s.params

theorem Emits.of_emit (bytes : List Byte) (s : State) : Emits bytes s (emit bytes s) := ⟨rfl, rfl, emit_params bytes s⟩

/-- Nothing is written where the stream, its source and the parameters stay. -/
theorem Emits.nil {s t : State} (hserial : t.serial = s.serial) (hsource : t.env.serialOk = s.env.serialOk)
    (hparams : t.params = s.params) : Emits [] s t := ⟨hserial, hsource, hparams⟩

theorem Emits.trans {first later : List Byte} {s t u : State} (hst : Emits first s t) (htu : Emits later t u) :
    Emits (first ++ later) s u := by
  obtain ⟨hserial, hsource, hparams⟩ := hst
  obtain ⟨hserial', hsource', hparams'⟩ := htu
  obtain ⟨hstream, hdraws⟩ := emit_congr later hserial hsource (by rw [hparams, emit_params])
  rw [Emits, emit_append]
  exact ⟨hserial'.trans hstream, hsource'.trans hdraws, hparams'.trans hparams⟩

theorem Emits.quiet_trans {bytes : List Byte} {s t u : State} (hquiet : Emits [] s t) (h : Emits bytes t u) :
    Emits bytes s u := hquiet.trans h

theorem Emits.trans_quiet {bytes : List Byte} {s t u : State} (h : Emits bytes s t) (hquiet : Emits [] t u) :
    Emits bytes s u := by
  simpa using h.trans hquiet

/-- An emission after a silent run. -/
theorem Emits.quiet_emit {bytes : List Byte} {s t : State} (hquiet : Emits [] s t) : Emits bytes s (emit bytes t) :=
  hquiet.quiet_trans (.of_emit bytes t)

theorem Emits.sends {bytes : List Byte} {s t : State} (h : Emits bytes s t) : sends bytes s t := by
  obtain ⟨hserial, hsource, -⟩ := h
  refine ⟨hserial, hsource, fun hdrop => ?_⟩
  rw [hserial, hsource, emit_of_no_drop hdrop]
  exact ⟨rfl, rfl⟩

end Sys2Proof.Machine
end

section
/-! Frame controller (42_frame_controller.md), section 2: what F2 to F6 of one frame do. -/

namespace Sys2Proof.Machine

/-! ### Readings of the buttons (R171) -/

/-- The next reading of line A, true for high (R171). -/
def readingA (s : State) : Bool := (s.env.levelA.queued[0]?).getD (Config.freeLevelA s.env.levelA.taken)

/-- The next reading of line A taken (R171). -/
def takeReadingA (s : State) : State :=
  { s with env := { s.env with levelA := ⟨s.env.levelA.queued.drop 1, s.env.levelA.taken + 1⟩ } }

/-- The next reading of line B, true for high (R171). -/
def readingB (s : State) : Bool := (s.env.levelB.queued[0]?).getD (Config.freeLevelB s.env.levelB.taken)

/-- The next reading of line B taken (R171). -/
def takeReadingB (s : State) : State :=
  { s with env := { s.env with levelB := ⟨s.env.levelB.queued.drop 1, s.env.levelB.taken + 1⟩ } }

theorem pressedA_eq_reading (s : State) : pressedA s = (!readingA s, takeReadingA s) := by
  simp only [pressedA, drawFrom_eq, readingA, takeReadingA]

theorem pressedB_eq_reading (s : State) : pressedB s = (!readingB s, takeReadingB s) := by
  simp only [pressedB, drawFrom_eq, readingB, takeReadingB]

/-! ### F2 (R173) -/

/-- The clear and the compare after a generation write one clear (R173, R180). -/
theorem afterGeneration_emits (s : State) : Emits clearBytes s (afterGeneration s) := by
  rw [afterGeneration, compareSnapshot_eq]
  exact Emits.quiet_emit (.nil rfl rfl rfl)

theorem generationDue_iff (s : State) : generationDue s = true ↔ 10 < s.tickCount := by
  rw [generationDue, Config.genTicks, decide_eq_true_iff]

theorem stagnant_iff (s : State) : stagnant s = true ↔ 50 < s.sameBoardCount := by
  rw [stagnant, Config.stagLimit, decide_eq_true_iff]

theorem frameF2_of_not_due {s : State} (hdue : ¬10 < s.tickCount) : frameF2 s = s :=
  if_neg (mt (generationDue_iff s).1 hdue)

/-- What RAND writes and takes depends on the entropy source alone (R106). -/
theorem randWorld_congr {s t : State} (hbytes : t.env.bytes = s.env.bytes) :
    (randWorld t).world = (randWorld s).world ∧ (randWorld t).env.bytes = (randWorld s).env.bytes := by
  rw [randWorld_eq, randWorld_eq, hbytes]
  exact ⟨rfl, rfl⟩

/-- `same_board_count` after the compare of a new generation with `P` (R173). -/
def sameBoardsAfterGeneration (s : State) : Nat := if nextWorld s.world = s.prev then s.sameBoardCount + 1 else 0

/-- What F2 does where a generation is due, on both sides of the stagnation limit (R173). -/
theorem frameF2_of_due {s : State} (hdue : 10 < s.tickCount) : ∃ world bytes serial source cmd, frameF2 s = { s with
      world := world, prev := nextWorld s.world, sameBoardCount := sameBoardsAfterGeneration s, tickCount := 0
      updateSerial := true, serial := serial, env := { s.env with bytes := bytes, serialOk := source }
      cmd := cmd, cmdValid := false } ∧
    (sameBoardsAfterGeneration s ≤ 50 → world = nextWorld s.world ∧ bytes = s.env.bytes) ∧
    (50 < sameBoardsAfterGeneration s → world = (randWorld s).world ∧ bytes = (randWorld s).env.bytes) := by
  obtain ⟨_, _, hafter, -⟩ := afterGeneration_cases (stepWorld (handshake .step s))
  have hstagnant : stagnant (afterGeneration (stepWorld (handshake .step s))) = true ↔
      50 < sameBoardsAfterGeneration s := by
    rw [stagnant_iff, hafter]; rfl
  simp only [frameF2, (generationDue_iff s).2 hdue, if_true]
  by_cases hlimit : 50 < sameBoardsAfterGeneration s
  · rw [if_pos (hstagnant.2 hlimit), hafter]
    refine ⟨_, _, _, _, _, rfl, fun hle => absurd hlimit (Nat.not_lt.2 hle), fun _ => randWorld_congr rfl⟩
  · rw [if_neg (mt hstagnant.1 hlimit), hafter]
    exact ⟨_, _, _, _, _, rfl, fun _ => ⟨rfl, rfl⟩, fun hlt => absurd hlt hlimit⟩

/-- F2 writes one clear where a generation is due (R173). -/
theorem frameF2_emits (s : State) : Emits (if 10 < s.tickCount then clearBytes else []) s (frameF2 s) := by
  split
  next hdue =>
    have hstep : Emits [] s (stepWorld (handshake .step s)) := .nil rfl rfl rfl
    have hend (t : State) : Emits [] t (resetTick (if stagnant t then randWorld (handshake .rand t) else t)) := by
      split <;> exact .nil rfl rfl rfl
    simp only [frameF2, (generationDue_iff s).2 hdue, if_true]
    exact (hstep.quiet_trans (afterGeneration_emits _)).trans_quiet (hend _)
  next hdue => rw [frameF2_of_not_due hdue]; exact .nil rfl rfl rfl

/-- Settles O43, from the two cases of F2. -/
theorem generationBoundary : Obligations.GenerationBoundary := by
  refine ⟨fun s hle => frameF2_of_not_due (Nat.not_lt.2 hle), fun s hdue => ?_⟩
  have hsends := (frameF2_emits s).sends
  rw [if_pos hdue] at hsends
  obtain ⟨world, bytes, serial, source, cmd, hframe, hbelow, habove⟩ := frameF2_of_due hdue
  refine ⟨by rw [hframe]; rfl, hsends, fun hle => ?_, fun hlt => ?_⟩
  · rw [hframe]; exact hbelow hle
  · obtain ⟨rfl, rfl⟩ := habove hlt
    rw [hframe]
    exact ⟨by rw [randWorld_eq], getLsbD_randWorld s⟩

/-! ### F3 and F4 (R174, R175) -/

theorem afterPressA_emits (s : State) : Emits clearBytes s (afterPressA s) := Emits.quiet_emit (.nil rfl rfl rfl)

theorem frameF3_of_high {s : State} (hhigh : readingA s = true) : frameF3 s = takeReadingA s := by
  simp [frameF3, pressedA_eq_reading, hhigh]

theorem frameF3_eq_of_low {s : State} (hlow : readingA s = false) :
    frameF3 s = afterPressA (randWorld (handshake .rand (takeReadingA s))) := by
  simp [frameF3, pressedA_eq_reading, hlow]

/-- What F3 does where A reads low (R174). -/
theorem frameF3_of_low {s : State} (hlow : readingA s = false) : ∃ serial source, frameF3 s = { s with
    world := (randWorld s).world, aIgnore := true, updateSerial := true, serial := serial
    env := { (takeReadingA s).env with bytes := (randWorld s).env.bytes, serialOk := source }
    cmd := encode .rand, cmdValid := false } := by
  obtain ⟨_, _, hafter, -⟩ := afterPressA_cases (randWorld (handshake .rand (takeReadingA s)))
  exact ⟨_, _, by rw [frameF3_eq_of_low hlow, hafter]; rfl⟩

/-- F3 writes one clear where A reads low (R174). -/
theorem frameF3_emits (s : State) : Emits (if readingA s = false then clearBytes else []) s (frameF3 s) := by
  cases hreading : readingA s with
  | false =>
    have hrand : Emits [] s (randWorld (handshake .rand (takeReadingA s))) := .nil rfl rfl rfl
    rw [frameF3_eq_of_low hreading, if_pos rfl]
    exact hrand.quiet_trans (afterPressA_emits _)
  | true => rw [frameF3_of_high hreading]; exact .nil rfl rfl rfl

theorem releaseA_of_clear {s : State} (hclear : s.aIgnore = false) : releaseA s = s := by
  simp [releaseA, hclear]

theorem releaseA_of_set {s : State} (hset : s.aIgnore = true) :
    releaseA s = { takeReadingA s with aIgnore := !readingA s } := by
  rw [releaseA, if_pos hset, pressedA_eq_reading]
  cases readingA s with
  | false => simp [takeReadingA, hset]
  | true => rfl

/-- Settles O44, from the two readings of F3 and the two values of the latch in F4. -/
theorem buttonARandomizesWhileHeld : Obligations.ButtonARandomizesWhileHeld := by
  refine fun s => ⟨frameF3_of_high, fun hlow => ?_, releaseA_of_clear, releaseA_of_set⟩
  have hsends := (frameF3_emits s).sends
  rw [if_pos (show readingA s = false from hlow)] at hsends
  obtain ⟨_, _, hframe⟩ := frameF3_of_low hlow
  refine ⟨?_, hsends, ?_⟩
  · rw [hframe, randWorld_eq]; rfl
  · rw [hframe]; exact getLsbD_randWorld s

/-! ### F5 (R176) -/

theorem afterPressB_emits (s : State) : Emits clearBytes s (afterPressB s) := Emits.quiet_emit (.nil rfl rfl rfl)

theorem sampleB_of_ignored {s : State} (hignored : s.aIgnore = true ∨ s.bIgnore = true) : sampleB s = (false, s) := by
  refine if_neg fun ⟨ha, hb⟩ => ?_
  simp [ha, hb] at hignored

theorem sampleB_of_clear {s : State} (ha : s.aIgnore = false) (hb : s.bIgnore = false) :
    sampleB s = (!readingB s, takeReadingB s) := by
  rw [sampleB, if_pos ⟨ha, hb⟩, pressedB_eq_reading]

/-- F5 without a press is its sample (R176). -/
theorem frameF5_of_not_pressed {s : State} (hup : (sampleB s).1 = false) : frameF5 s = (sampleB s).2 := by
  simp [frameF5, hup]

theorem frameF5_eq_of_pressed {s : State} (hdown : (sampleB s).1 = true) :
    frameF5 s = afterPressB (complementWorld (handshake .cpl (sampleB s).2)) := by
  simp [frameF5, hdown]

/-- What F5 does on a press: both latches were clear and B read low (R176). -/
theorem frameF5_of_pressed {s : State} (hdown : (sampleB s).1 = true) : ∃ serial source, frameF5 s = { s with
    env := { (takeReadingB s).env with serialOk := source }
    world := s.world ^^^ 0x1FFFFFF#25, bIgnore := true, updateSerial := true, serial := serial
    cmd := encode .cpl, cmdValid := false } := by
  obtain ⟨_, _, hsample, hclear, -⟩ := sampleB_cases s
  obtain ⟨ha, hb⟩ := hclear (by rw [← hdown, hsample])
  obtain ⟨_, _, hafter, -⟩ := afterPressB_cases (complementWorld (handshake .cpl (takeReadingB s)))
  exact ⟨_, _, by rw [frameF5_eq_of_pressed hdown, sampleB_of_clear ha hb, hafter]; rfl⟩

/-- F5 writes one clear on a press (R176). -/
theorem frameF5_emits (s : State) : Emits (if (sampleB s).1 = true then clearBytes else []) s (frameF5 s) := by
  obtain ⟨_, _, hsample, -⟩ := sampleB_cases s
  split
  next hdown =>
    have hcpl : Emits [] s (complementWorld (handshake .cpl (sampleB s).2)) := by rw [hsample]; exact .nil rfl rfl rfl
    rw [frameF5_eq_of_pressed hdown]
    exact hcpl.quiet_trans (afterPressB_emits _)
  next hup =>
    rw [frameF5_of_not_pressed (Bool.eq_false_iff.2 hup), hsample]
    exact .nil rfl rfl rfl

/-- Settles O45, from the guard of F5 and the two readings of B. -/
theorem buttonBComplementsOnce : Obligations.ButtonBComplementsOnce := by
  refine ⟨fun s hignored => ?_, fun s ha hb => ⟨fun hhigh => ?_, fun hlow => ?_⟩⟩
  · rw [frameF5_of_not_pressed (by rw [sampleB_of_ignored hignored]), sampleB_of_ignored hignored]
  · have hup : (sampleB s).1 = false := by rw [sampleB_of_clear ha hb]; exact congrArg not hhigh
    rw [frameF5_of_not_pressed hup, sampleB_of_clear ha hb]
    rfl
  · have hdown : (sampleB s).1 = true := by rw [sampleB_of_clear ha hb]; exact congrArg not hlow
    have hsends := (frameF5_emits s).sends
    rw [if_pos hdown] at hsends
    obtain ⟨_, _, hframe⟩ := frameF5_of_pressed hdown
    exact ⟨by rw [hframe]; rfl, hsends⟩

/-! ### F6 (R177) -/

theorem cooldown_of_below {s : State} (hset : s.bIgnore = true) (hlt : s.bIgnoreCount < 100) :
    cooldown s = { s with bIgnoreCount := s.bIgnoreCount + 1 } := if_pos ⟨hset, hlt⟩

theorem cooldown_of_done {s : State} (hdone : s.bIgnore = false ∨ 100 ≤ s.bIgnoreCount) :
    cooldown s = { s with bIgnoreCount := 0, bIgnore := false } := by
  refine if_neg fun ⟨hset, hlt⟩ => ?_
  obtain hclear | hle := hdone
  · simp [hset] at hclear
  · exact Nat.not_lt.2 hle hlt

/-- Settles O46: the two branches of the cooldown. -/
theorem cooldownStep : Obligations.CooldownStep := fun _ => ⟨cooldown_of_below, cooldown_of_done⟩

end Sys2Proof.Machine
end

section
/-! Frame controller (42_frame_controller.md), section 2: F7, one whole SCAN with the row bytes written during it. -/

namespace Sys2Proof.Machine

/-! ### The sequencer run to its end (R147) -/

/-- A sweep has at most 50 LIGHTs: an off for each cell and an on for each live cell (R147, R148). -/
theorem length_lightSequence_le (w : World) : (lightSequence w).length ≤ 50 := by
  have hlive : liveCells w ≤ 25 := (List.length_filter_le _ _).trans (List.length_range ..).le
  rw [length_lightSequence]
  omega

/-- With enough fuel the run performs every LIGHT left, one in each step (R147). -/
theorem runScan_eq_iterate {fuel : Nat} {s : State} (hfuel : (pendingLights s.world s.sstate).length ≤ fuel) :
    runScan fuel s = scanTurn^[(pendingLights s.world s.sstate).length] s := by
  induction fuel generalizing s with
  | zero => rw [Nat.le_zero.1 hfuel]; rfl
  | succ fuel ih =>
    have hnext : pendingLights (scanTurn s).world (scanTurn s).sstate = (pendingLights s.world s.sstate).tail := by
      rw [scanTurn_world, pendingLights_scanTurn]
    rw [runScan]
    cases hpending : pendingLights s.world s.sstate with
    | nil =>
      rw [if_neg (mt (busy_iff_pendingLights s.world s).1 (not_not_intro hpending))]
      rfl
    | cons l rest =>
      rw [hpending] at hnext hfuel
      rw [if_pos ((busy_iff_pendingLights s.world s).2 (hpending ▸ List.cons_ne_nil l rest)),
        ih (hnext ▸ Nat.le_of_succ_le_succ hfuel), hnext]
      rfl

/-- The state in which F7's SCAN has been accepted (R178). -/
def paintStart (s : State) : State := startScan (handshake .scan (fillOutbox s))

/-- The state in which F7's SCAN has completed (R178). -/
def paintEnd (s : State) : State := runScan 50 (paintStart s)

theorem frameF7_eq (s : State) : frameF7 s = finishPaint (paintEnd s) := rfl

theorem paintEnd_eq_iterate (s : State) : paintEnd s = scanTurn^[(lightSequence s.world).length] (paintStart s) :=
  runScan_eq_iterate (length_lightSequence_le s.world)

theorem paintEnd_sstate (s : State) : (paintEnd s).sstate = .idle := by
  obtain ⟨-, hleft⟩ := pendingLights_iterate_scanTurn (lightSequence s.world).length (paintStart s)
  rw [paintEnd_eq_iterate, ← pendingLights_eq_nil_iff s.world]
  exact hleft.trans List.drop_length

/-! ### What the sweep leaves alone (R178) -/

/-- A step of the busy machine takes no random byte and no reading of a button (R145, R146, R178). -/
theorem scanTurn_env (s : State) : ∃ serialSource lineSource burstSource, (scanTurn s).env =
    { s.env with serialOk := serialSource, lineOk := lineSource, burst := burstSource } := by
  obtain ⟨_, _, _, _, hinterleave, -⟩ := interleave_cases s
  obtain ⟨_, _, _, _, hscan⟩ := scanStep_frame (interleave s)
  exact ⟨_, _, _, by rw [scanTurn, hscan, hinterleave]⟩

theorem runScan_env (fuel : Nat) (s : State) : ∃ serialSource lineSource burstSource, (runScan fuel s).env =
    { s.env with serialOk := serialSource, lineOk := lineSource, burst := burstSource } := by
  induction fuel generalizing s with
  | zero => exact ⟨_, _, _, rfl⟩
  | succ fuel ih =>
    rw [runScan]
    split
    · obtain ⟨_, _, _, hturn⟩ := scanTurn_env s
      obtain ⟨_, _, _, hrest⟩ := ih (scanTurn s)
      exact ⟨_, _, _, by rw [hrest, hturn]⟩
    · exact ⟨_, _, _, rfl⟩

/-- What F7 does, whatever becomes of the lines (R178). -/
theorem frameF7_frame (s : State) : ∃ row col serial serialSource lineSource burstSource, frameF7 s = { s with
    row := row, col := col, sstate := .idle, updateSerial := false, outbox := [], serial := serial
    env := { s.env with serialOk := serialSource, lineOk := lineSource, burst := burstSource }
    cmd := encode .scan, cmdValid := false } := by
  obtain ⟨_, _, _, henv⟩ := runScan_env 50 (paintStart s)
  have hidle := paintEnd_sstate s
  obtain ⟨_, _, _, _, _, _, hrun⟩ := runScan_frame 50 (paintStart s)
  obtain ⟨_, _, hfinish, -⟩ := finishPaint_cases (paintEnd s)
  rw [paintEnd, hrun] at hidle
  rw [hrun] at henv
  obtain rfl := hidle
  obtain rfl := henv
  exact ⟨_, _, _, _, _, _, by rw [frameF7_eq, hfinish, paintEnd, hrun]; rfl⟩

/-! ### The row bytes (R65, R178) -/

/-- The row bytes written before a sequencer step are the first of those left (R178). -/
theorem interleave_emits (s : State) : ∃ n, (interleave s).outbox = s.outbox.drop n ∧
    Emits (s.outbox.take n) s (interleave s) := by
  unfold interleave
  split
  next hempty => exact ⟨0, rfl, .nil rfl rfl rfl⟩
  next => exact ⟨_, emit_outbox _ _, Emits.quiet_emit (.nil rfl rfl rfl)⟩

/-- So are those written in a step of the busy machine. -/
theorem scanTurn_emits (s : State) : ∃ n, (scanTurn s).outbox = s.outbox.drop n ∧
    Emits (s.outbox.take n) s (scanTurn s) := by
  obtain ⟨n, houtbox, hemits⟩ := interleave_emits s
  obtain ⟨_, _, _, _, hscan⟩ := scanStep_frame (interleave s)
  rw [scanTurn, hscan]
  exact ⟨n, houtbox, hemits.trans_quiet (.nil rfl rfl rfl)⟩

/-- And those written in a run of the sequencer. -/
theorem runScan_emits (fuel : Nat) (s : State) : ∃ n, (runScan fuel s).outbox = s.outbox.drop n ∧
    Emits (s.outbox.take n) s (runScan fuel s) := by
  induction fuel generalizing s with
  | zero => exact ⟨0, rfl, .nil rfl rfl rfl⟩
  | succ fuel ih =>
    rw [runScan]
    split
    · obtain ⟨n, houtbox, hemits⟩ := scanTurn_emits s
      obtain ⟨m, houtbox', hemits'⟩ := ih (scanTurn s)
      rw [houtbox] at houtbox' hemits'
      exact ⟨n + m, by rw [houtbox', List.drop_drop], by rw [List.take_add]; exact hemits.trans hemits'⟩
    · exact ⟨0, rfl, .nil rfl rfl rfl⟩

theorem finishPaint_emits (s : State) : Emits s.outbox s (finishPaint s) := by
  have hrest : Emits s.outbox s (emit s.outbox { s with outbox := [] }) := .quiet_emit (.nil rfl rfl rfl)
  exact hrest.trans_quiet (.nil rfl rfl rfl)

/-- F7 writes the rendering where `update_serial` is set, part of it in the sweep and the rest after it (R178). -/
theorem frameF7_emits (s : State) : Emits (if s.updateSerial = true then renderRows s.world else []) s (frameF7 s) := by
  have hstart : Emits [] s (paintStart s) := .nil rfl rfl rfl
  obtain ⟨n, houtbox, hemits⟩ := runScan_emits 50 (paintStart s)
  have hfinish := finishPaint_emits (paintEnd s)
  rw [paintEnd, houtbox] at hfinish
  have hwhole := hstart.quiet_trans (hemits.trans hfinish)
  rwa [List.take_append_drop] at hwhole

/-! ### The lines at the end of the sweep (R149) -/

/-- With line writes that take effect a sequencer step takes no line draw (R152). -/
theorem scanStep_lineOk_of_reliable {s : State} (hreliable : s.params.lineWriteMayFail = false) :
    (scanStep s).env.lineOk = s.env.lineOk := by
  cases hpending : pendingLights s.world s.sstate with
  | nil => rw [scanStep_of_pendingLights_nil hpending]
  | cons l rest => rw [scanStep_of_pendingLights hpending, driveCell_of_reliable _ _ _ _ hreliable]; rfl

theorem scanTurn_lineOk_of_reliable {s : State} (hreliable : s.params.lineWriteMayFail = false) :
    (scanTurn s).env.lineOk = s.env.lineOk := by
  obtain ⟨_, _, _, _, hframe, -⟩ := interleave_cases s
  rw [scanTurn, scanStep_lineOk_of_reliable (by rw [hframe]; exact hreliable), hframe]

/-- At CELL(0) every line is still to be switched. -/
theorem sweptLinesIdle_of_cell_zero {s : State} (hreliable : s.params.lineWriteMayFail = false)
    (hcell : s.sstate = .cell 0) : SweptLinesIdle s := by
  rw [SweptLinesIdle, pendingLights_of_cell_zero hcell]
  exact ⟨hreliable, otherLinesAt_lightSequence false (fun r => ⟨cellIndex r 0, cellRow_cellIndex r 0⟩) s.world s.row,
    otherLinesAt_lightSequence true (fun c => ⟨cellIndex 0 c, cellCol_cellIndex 0 c⟩) s.world s.col⟩

/-- With line writes that take effect F7's sweep ends with idle lines and takes no line draw (R149, R152). -/
theorem paintEnd_of_reliable {s : State} (hreliable : s.params.lineWriteMayFail = false) :
    (paintEnd s).linesIdle = true ∧ (paintEnd s).env.lineOk = s.env.lineOk := by
  have hsweep : SweptLinesIdle (paintEnd s) ∧ (paintEnd s).env.lineOk = s.env.lineOk := by
    rw [paintEnd_eq_iterate]
    refine Function.Iterate.rec (fun t => SweptLinesIdle t ∧ t.env.lineOk = s.env.lineOk)
      ⟨sweptLinesIdle_of_cell_zero (s := paintStart s) hreliable rfl, rfl⟩ (fun _ ⟨hswept, hsource⟩ => ?_) _
    exact ⟨scanTurn_sweptLinesIdle hswept, (scanTurn_lineOk_of_reliable hswept.1).trans hsource⟩
  obtain ⟨hswept, hsource⟩ := hsweep
  exact ⟨linesIdle_of_sweptLinesIdle hswept (paintEnd_sstate s), hsource⟩

/-- Settles O47: what F7 changes, what it writes, and the lines it leaves. -/
theorem paintStep : Obligations.PaintStep := by
  refine fun s => ⟨?_, (frameF7_emits s).sends, fun hreliable => ?_⟩
  · obtain ⟨_, _, _, _, _, _, hframe⟩ := frameF7_frame s
    rw [hframe]
  · obtain ⟨_, _, hfinish, -⟩ := finishPaint_cases (paintEnd s)
    rw [frameF7_eq, hfinish]
    exact paintEnd_of_reliable hreliable

end Sys2Proof.Machine
end

section
/-! Frame controller (42_frame_controller.md), section 4: what whole frames do to the counters, the button latches, the
board and the serial stream. -/

namespace Sys2Proof.Machine

/-! ### What the phases of a frame leave alone (R172 to R178) -/

/-- F2 does nothing, or it acts where a generation is due (R173). -/
theorem frameF2_cases (s : State) : (¬10 < s.tickCount ∧ frameF2 s = s) ∨
    (10 < s.tickCount ∧ ∃ world same bytes serial source cmd, frameF2 s = { s with
      world := world, prev := nextWorld s.world, sameBoardCount := same, tickCount := 0, updateSerial := true
      serial := serial, env := { s.env with bytes := bytes, serialOk := source }, cmd := cmd, cmdValid := false }) := by
  by_cases hdue : 10 < s.tickCount
  · obtain ⟨_, _, _, _, _, hframe, -⟩ := frameF2_of_due hdue
    exact .inr ⟨hdue, _, _, _, _, _, _, hframe⟩
  · exact .inl ⟨hdue, frameF2_of_not_due hdue⟩

/-- F3 takes a reading of A, and acts where it is low (R174). -/
theorem frameF3_cases (s : State) : (readingA s = true ∧ frameF3 s = takeReadingA s) ∨
    (readingA s = false ∧ ∃ world bytes serial source, frameF3 s = { s with
      world := world, aIgnore := true, updateSerial := true, serial := serial
      env := { (takeReadingA s).env with bytes := bytes, serialOk := source }
      cmd := encode .rand, cmdValid := false }) := by
  cases hreading : readingA s with
  | true => exact .inl ⟨rfl, frameF3_of_high hreading⟩
  | false =>
    obtain ⟨_, _, hframe⟩ := frameF3_of_low hreading
    exact .inr ⟨rfl, _, _, _, _, hframe⟩

/-- F5 takes at most a reading of B, and acts where one was taken and is low (R176). -/
theorem frameF5_cases (s : State) : ((sampleB s).1 = false ∧ frameF5 s = (sampleB s).2) ∨
    ((sampleB s).1 = true ∧ ∃ serial source, frameF5 s = { s with
      env := { (takeReadingB s).env with serialOk := source }
      world := s.world ^^^ 0x1FFFFFF#25, bIgnore := true, updateSerial := true, serial := serial
      cmd := encode .cpl, cmdValid := false }) := by
  cases hpressed : (sampleB s).1 with
  | false => exact .inl ⟨rfl, frameF5_of_not_pressed hpressed⟩
  | true => exact .inr ⟨rfl, frameF5_of_pressed hpressed⟩

/-! ### The counters (R172, R173, R177) -/

theorem hostCounters_frameF2 (s : State) :
    hostCounters (frameF2 s) = (if 10 < s.tickCount then 0 else s.tickCount, s.bIgnoreCount, s.bIgnore) := by
  obtain ⟨hdue, hframe⟩ | ⟨hdue, _, _, _, _, _, _, hframe⟩ := frameF2_cases s
  · rw [hframe, if_neg hdue]; rfl
  · rw [hframe, if_pos hdue]; rfl

@[simp] theorem hostCounters_frameF3 (s : State) : hostCounters (frameF3 s) = hostCounters s := by
  obtain ⟨-, hframe⟩ | ⟨-, _, _, _, _, hframe⟩ := frameF3_cases s <;> rw [hframe] <;> rfl

/-- Of the three, F5 touches the latch alone, and that on a press (R176). -/
theorem hostCounters_frameF5 (s : State) :
    hostCounters (frameF5 s) = (s.tickCount, s.bIgnoreCount, s.bIgnore || (sampleB s).1) := by
  obtain ⟨hup, hframe⟩ | ⟨hdown, _, _, hframe⟩ := frameF5_cases s
  · rw [hframe, hostCounters_sampleB, hup, Bool.or_false]; rfl
  · rw [hframe, hdown, Bool.or_true]; rfl

@[simp] theorem hostCounters_frameF7 (s : State) : hostCounters (frameF7 s) = hostCounters s := by
  obtain ⟨_, _, _, _, _, _, hframe⟩ := frameF7_frame s
  rw [hframe]; rfl

/-- The state in which a frame comes to F5 (R179). -/
def beforeF5 (s : State) : State := releaseA (frameF3 (frameF2 (tick s)))

/-- The state in which a frame comes to F7 (R179). -/
def beforeF7 (s : State) : State := cooldown (frameF5 (beforeF5 s))

theorem frame_eq (s : State) : frame s = frameF7 (beforeF7 s) := rfl

theorem hostCounters_beforeF5 (s : State) : hostCounters (beforeF5 s) =
    (if 10 ≤ s.tickCount then 0 else s.tickCount + 1, s.bIgnoreCount, s.bIgnore) := by
  simp [beforeF5, hostCounters_frameF2]

/-- F6 counts up to the bound while the latch is set, and then clears both (R177). -/
theorem hostCounters_cooldown (s : State) : hostCounters (cooldown s) =
    if s.bIgnore = true ∧ s.bIgnoreCount < 100 then (s.tickCount, s.bIgnoreCount + 1, true)
    else (s.tickCount, 0, false) := by
  obtain ⟨hset, hlt, hcooldown⟩ | ⟨hdone, hcooldown⟩ := cooldown_cases s
  · rw [hcooldown, if_pos ⟨hset, hlt⟩, hset]
  · rw [hcooldown, if_neg hdone]

/-- What a frame does to the counters: the tick goes to 10 and then to 0, and the latch of B as F5 left it counts up to
100 and is then cleared (R172, R173, R176, R177). -/
theorem hostCounters_frame (s : State) : hostCounters (frame s) =
    (if 10 ≤ s.tickCount then 0 else s.tickCount + 1,
      if (s.bIgnore || (sampleB (beforeF5 s)).1) = true ∧ s.bIgnoreCount < 100 then (s.bIgnoreCount + 1, true)
      else (0, false)) := by
  obtain ⟨htick, hcount, hlatch⟩ : _ ∧ _ ∧ _ := by simpa [hostCounters] using hostCounters_beforeF5 s
  obtain ⟨htick', hcount', hlatch'⟩ : _ ∧ _ ∧ _ := by simpa [hostCounters] using hostCounters_frameF5 (beforeF5 s)
  rw [frame_eq, hostCounters_frameF7, beforeF7, hostCounters_cooldown, htick', hcount', hlatch', htick, hcount, hlatch]
  split <;> rfl

theorem frame_tickCount (s : State) : (frame s).tickCount = if 10 ≤ s.tickCount then 0 else s.tickCount + 1 :=
  congrArg Prod.fst (hostCounters_frame s)

theorem frame_latchB (s : State) : ((frame s).bIgnoreCount, (frame s).bIgnore) =
    if (s.bIgnore || (sampleB (beforeF5 s)).1) = true ∧ s.bIgnoreCount < 100 then (s.bIgnoreCount + 1, true)
    else (0, false) :=
  congrArg Prod.snd (hostCounters_frame s)

theorem frames_succ (n : Nat) (s : State) : frames (n + 1) s = frame (frames n s) := by
  induction n generalizing s with
  | zero => rfl
  | succ n ih => exact ih (frame s)

/-- From 0 the tick counts the frames in a cycle of eleven (R186). -/
theorem frames_tickCount {s : State} (hzero : s.tickCount = 0) (n : Nat) : (frames n s).tickCount = n % 11 := by
  induction n with
  | zero => exact hzero
  | succ n ih =>
    rw [frames_succ, frame_tickCount, ih]
    split <;> omega

/-- Settles O53: a generation is due in the next frame where the tick is 10. -/
theorem generationEveryEleventhFrame : Obligations.GenerationEveryEleventhFrame := by
  intro s hzero n
  have htick := frames_tickCount hzero n
  refine ⟨htick, ?_⟩
  rw [generationDue_iff, tick_tickCount, htick]
  omega

/-! ### The latch of button B (R185, R190) -/

@[simp] theorem frameF2_levelB (s : State) : (frameF2 s).env.levelB = s.env.levelB := by
  obtain ⟨-, hframe⟩ | ⟨-, _, _, _, _, _, _, hframe⟩ := frameF2_cases s <;> rw [hframe]

@[simp] theorem frameF3_levelB (s : State) : (frameF3 s).env.levelB = s.env.levelB := by
  obtain ⟨-, hframe⟩ | ⟨-, _, _, _, _, hframe⟩ := frameF3_cases s <;> rw [hframe] <;> rfl

@[simp] theorem releaseA_levelB (s : State) : (releaseA s).env.levelB = s.env.levelB := by
  obtain ⟨_, _, hrelease, -⟩ := releaseA_cases s
  rw [hrelease]

@[simp] theorem cooldown_env (s : State) : (cooldown s).env = s.env := by
  unfold cooldown
  split <;> rfl

@[simp] theorem frameF7_levelB (s : State) : (frameF7 s).env.levelB = s.env.levelB := by
  obtain ⟨_, _, _, _, _, _, hframe⟩ := frameF7_frame s
  rw [hframe]

theorem beforeF5_bIgnore (s : State) : (beforeF5 s).bIgnore = s.bIgnore :=
  congrArg (fun counters => counters.2.2) (hostCounters_beforeF5 s)

/-- A frame that starts with the latch set takes no reading of B (R190). -/
theorem frame_levelB_of_latched {s : State} (hset : s.bIgnore = true) : (frame s).env.levelB = s.env.levelB := by
  have hsample : sampleB (beforeF5 s) = (false, beforeF5 s) :=
    sampleB_of_ignored (.inr ((beforeF5_bIgnore s).trans hset))
  rw [frame_eq, beforeF7, frameF5_of_not_pressed (by rw [hsample]), hsample]
  simp [beforeF5]

/-- A frame that starts with the latch set counts it up, or clears it at 100 (R185). -/
theorem frame_latchB_of_latched {s : State} (hset : s.bIgnore = true) : ((frame s).bIgnoreCount, (frame s).bIgnore) =
    if s.bIgnoreCount < 100 then (s.bIgnoreCount + 1, true) else (0, false) := by
  simp only [frame_latchB, hset, Bool.true_or, true_and]

/-- For 99 frames after one that set the latch it stays set, counts the frames, and keeps B from being read (R185). -/
theorem frames_latchB {s : State} (hset : s.bIgnore = true) (hone : s.bIgnoreCount = 1) {j : Nat} (hj : j ≤ 99) :
    (frames j s).bIgnore = true ∧ (frames j s).bIgnoreCount = j + 1 ∧ (frames j s).env.levelB = s.env.levelB := by
  induction j with
  | zero => exact ⟨hset, hone, rfl⟩
  | succ j ih =>
    obtain ⟨hset', hcount, hlevel⟩ := ih (by omega)
    have hlatch := frame_latchB_of_latched hset'
    rw [hcount, if_pos (by omega)] at hlatch
    obtain ⟨hcount', hset''⟩ := Prod.mk.inj hlatch
    rw [frames_succ]
    exact ⟨hset'', hcount', (frame_levelB_of_latched hset').trans hlevel⟩

/-- Settles O54: the frame that sets the latch, the 99 that count it, and the one that clears it. -/
theorem buttonBCooldownTiming : Obligations.ButtonBCooldownTiming := by
  refine ⟨fun s hclear hzero hset => ?_, fun s hset hone => ?_⟩
  · have hlatch := frame_latchB s
    rw [hset, hzero] at hlatch
    split at hlatch
    · exact congrArg Prod.fst hlatch
    · simp at hlatch
  · have hbelow {j : Nat} (hj : j ≤ 99) := frames_latchB hset hone hj
    obtain ⟨hset', hcount, hlevel⟩ := hbelow (le_refl 99)
    have hlatch := frame_latchB_of_latched hset'
    rw [hcount, if_neg (by decide), ← frames_succ] at hlatch
    obtain ⟨hcount', hclear⟩ := Prod.mk.inj hlatch
    refine ⟨fun j hj => ?_, hclear, hcount', fun j hj => ?_⟩
    · obtain ⟨hset'', hcount'', -⟩ := hbelow hj
      exact ⟨hset'', hcount''⟩
    · obtain hlt | rfl := Nat.lt_or_eq_of_le hj
      · obtain ⟨-, -, hlevel'⟩ := hbelow (Nat.le_of_lt_succ hlt)
        exact hlevel'
      · rw [frames_succ]
        exact (frame_levelB_of_latched hset').trans hlevel

/-! ### Stagnation (R187) -/

/-- What stagnation is about: the world, `P`, `same_board_count` and the source of random bytes. -/
def boardRecord (s : State) : World × World × Nat × Source Byte := (s.world, s.prev, s.sameBoardCount, s.env.bytes)

@[simp] theorem boardRecord_cooldown (s : State) : boardRecord (cooldown s) = boardRecord s := by
  unfold cooldown
  split <;> rfl

@[simp] theorem boardRecord_frameF7 (s : State) : boardRecord (frameF7 s) = boardRecord s := by
  obtain ⟨_, _, _, _, _, _, hframe⟩ := frameF7_frame s
  rw [hframe]; rfl

theorem boardRecord_frameF3_of_high {s : State} (hhigh : readingA s = true) :
    boardRecord (frameF3 s) = boardRecord s := by
  rw [frameF3_of_high hhigh]; rfl

theorem boardRecord_frameF5_of_not_pressed {s : State} (hup : (sampleB s).1 = false) :
    boardRecord (frameF5 s) = boardRecord s := by
  obtain ⟨_, _, hsample, -⟩ := sampleB_cases s
  rw [frameF5_of_not_pressed hup, hsample]; rfl

@[simp] theorem frameF2_levelA (s : State) : (frameF2 s).env.levelA = s.env.levelA := by
  obtain ⟨-, hframe⟩ | ⟨-, _, _, _, _, _, _, hframe⟩ := frameF2_cases s <;> rw [hframe]

@[simp] theorem frameF2_aIgnore (s : State) : (frameF2 s).aIgnore = s.aIgnore := by
  obtain ⟨-, hframe⟩ | ⟨-, _, _, _, _, _, _, hframe⟩ := frameF2_cases s <;> rw [hframe]

/-- F3 reads what line A answered before F1 (R172 to R174). -/
theorem readingA_frameF2_tick (s : State) : readingA (frameF2 (tick s)) = readingA s := by
  simp only [readingA, frameF2_levelA, tick_env]

/-- What the sample of B answers depends on the two latches and the source alone (R176). -/
theorem sampleB_congr {s t : State} (ha : t.aIgnore = s.aIgnore) (hb : t.bIgnore = s.bIgnore)
    (hsource : t.env.levelB = s.env.levelB) : (sampleB t).1 = (sampleB s).1 := by
  simp only [sampleB, ha, hb]
  split
  · simp only [pressedB, hsource]
  · rfl

/-- With no button acting only F2 touches the board (R187). -/
theorem boardRecord_frame_of_idle {s : State} (ha : s.aIgnore = false) (hhigh : readingA s = true)
    (hup : (sampleB s).1 = false) : boardRecord (frame s) = boardRecord (frameF2 (tick s)) := by
  have hhigh' : readingA (frameF2 (tick s)) = true := (readingA_frameF2_tick s).trans hhigh
  have ha' : (frameF3 (frameF2 (tick s))).aIgnore = false := by
    rw [frameF3_of_high hhigh']; exact (frameF2_aIgnore (tick s)).trans ha
  have hbefore : beforeF5 s = frameF3 (frameF2 (tick s)) := releaseA_of_clear ha'
  have hup' : (sampleB (beforeF5 s)).1 = false := by
    refine (sampleB_congr ?_ (beforeF5_bIgnore s) ?_).trans hup
    · rw [hbefore, ha', ha]
    · simp [hbefore]
  rw [frame_eq, boardRecord_frameF7, beforeF7, boardRecord_cooldown, boardRecord_frameF5_of_not_pressed hup', hbefore,
    boardRecord_frameF3_of_high hhigh']

/-- Settles O55: what F2 does to the board, below its threshold and at it. -/
theorem stagnationCountsEqualBoundaries : Obligations.StagnationCountsEqualBoundaries := by
  intro s ha hpressed hup
  have hhigh : readingA s = true := by simpa [pressedA_eq_reading] using hpressed
  have hboard := boardRecord_frame_of_idle ha hhigh hup
  refine ⟨fun hbelow => ?_, fun htick hstill hprev => ?_⟩
  · rw [frameF2_of_not_due (by rw [tick_tickCount]; omega)] at hboard
    simpa [boardRecord] using hboard
  · obtain ⟨world, bytes, _, _, _, hframe, hkept, hrandom⟩ := frameF2_of_due (s := tick s) (by rw [tick_tickCount]; omega)
    have hsame : sameBoardsAfterGeneration (tick s) = s.sameBoardCount + 1 := if_pos (hstill.trans hprev.symm)
    rw [hsame] at hframe hkept hrandom
    rw [hframe] at hboard
    obtain ⟨hworld, hprev', hcount, hbytes⟩ :
        (frame s).world = world ∧ (frame s).prev = s.prev ∧ (frame s).sameBoardCount = s.sameBoardCount + 1 ∧
          (frame s).env.bytes = bytes := by
      simpa [boardRecord, hstill, hprev] using hboard
    refine ⟨hprev', hcount, fun hlt => ?_, fun hle => ?_⟩
    · obtain ⟨rfl, rfl⟩ := hkept hlt
      exact ⟨hworld.trans hstill, hbytes⟩
    · obtain ⟨rfl, rfl⟩ := hrandom (Nat.lt_succ_of_le hle)
      rw [hworld, hbytes]
      exact ⟨by rw [randWorld_eq]; rfl, getLsbD_randWorld (tick s)⟩

/-! ### The serial stream of a frame (R191) -/

/-- `n` clears (R180). -/
def clears (n : Nat) : List Byte := (List.replicate n clearBytes).flatten

theorem clears_add (m n : Nat) : clears (m + n) = clears m ++ clears n := by
  rw [clears, List.replicate_add, List.flatten_append]
  rfl

/-- One clear or none. -/
theorem clears_ite (p : Prop) [Decidable p] : clears (if p then 1 else 0) = if p then clearBytes else [] := by
  split <;> rfl

theorem releaseA_emits (s : State) : Emits [] s (releaseA s) := by
  obtain ⟨_, _, hrelease, -⟩ := releaseA_cases s
  rw [hrelease]
  exact .nil rfl rfl rfl

theorem cooldown_emits (s : State) : Emits [] s (cooldown s) := by
  unfold cooldown
  split <;> exact .nil rfl rfl rfl

theorem frameF2_updateSerial (s : State) :
    (frameF2 s).updateSerial = true ↔ 10 < s.tickCount ∨ s.updateSerial = true := by
  obtain ⟨hdue, hframe⟩ | ⟨hdue, _, _, _, _, _, _, hframe⟩ := frameF2_cases s <;> simp [hframe, hdue]

theorem frameF3_updateSerial (s : State) :
    (frameF3 s).updateSerial = true ↔ (pressedA s).1 = true ∨ s.updateSerial = true := by
  obtain ⟨hreading, hframe⟩ | ⟨hreading, _, _, _, _, hframe⟩ := frameF3_cases s <;>
    simp [hframe, pressedA_eq_reading, hreading, takeReadingA]

@[simp] theorem sampleB_updateSerial (s : State) : (sampleB s).2.updateSerial = s.updateSerial := by
  obtain ⟨_, _, hsample, -⟩ := sampleB_cases s
  rw [hsample]

theorem frameF5_updateSerial (s : State) :
    (frameF5 s).updateSerial = true ↔ (sampleB s).1 = true ∨ s.updateSerial = true := by
  obtain ⟨hup, hframe⟩ | ⟨hdown, _, _, hframe⟩ := frameF5_cases s
  · simp [hframe, hup]
  · simp [hframe, hdown]

@[simp] theorem releaseA_updateSerial (s : State) : (releaseA s).updateSerial = s.updateSerial := by
  obtain ⟨_, _, hrelease, -⟩ := releaseA_cases s
  rw [hrelease]

@[simp] theorem cooldown_updateSerial (s : State) : (cooldown s).updateSerial = s.updateSerial := by
  unfold cooldown
  split <;> rfl

/-- How many of F2, F3 and F5 act in a frame (R191). -/
def actingCauses (s : State) : Nat :=
  (if 10 ≤ s.tickCount then 1 else 0) + (if (pressedA s).1 = true then 1 else 0) +
    (if (sampleB (beforeF5 s)).1 = true then 1 else 0)

theorem tick_due_iff (s : State) : 10 < (tick s).tickCount ↔ 10 ≤ s.tickCount := Nat.lt_succ_iff

theorem pressedA_frameF2_tick (s : State) : (pressedA (frameF2 (tick s))).1 = (pressedA s).1 := by
  rw [pressedA_eq_reading, pressedA_eq_reading, readingA_frameF2_tick]

theorem pressedA_iff (s : State) : (pressedA s).1 = true ↔ readingA s = false := by
  rw [pressedA_eq_reading, Bool.not_eq_true']

/-- Before F7 a frame sends one clear for each acting cause (R191). -/
theorem beforeF7_emits (s : State) : Emits (clears (actingCauses s)) s (beforeF7 s) := by
  have hF2 : Emits (clears (if 10 ≤ s.tickCount then 1 else 0)) s (frameF2 (tick s)) := by
    have hF1 : Emits [] s (tick s) := .nil rfl rfl rfl
    have hF2 := frameF2_emits (tick s)
    simp only [tick_due_iff, ← clears_ite] at hF2
    exact hF1.quiet_trans hF2
  have hF3 : Emits (clears (if (pressedA s).1 = true then 1 else 0)) (frameF2 (tick s)) (beforeF5 s) := by
    have hF3 := frameF3_emits (frameF2 (tick s))
    rw [← clears_ite, readingA_frameF2_tick] at hF3
    simp only [pressedA_iff]
    exact hF3.trans_quiet (releaseA_emits _)
  have hF5 : Emits (clears (if (sampleB (beforeF5 s)).1 = true then 1 else 0)) (beforeF5 s) (beforeF7 s) := by
    rw [clears_ite]
    exact (frameF5_emits (beforeF5 s)).trans_quiet (cooldown_emits _)
  rw [actingCauses, clears_add, clears_add]
  exact (hF2.trans hF3).trans hF5

/-- Before F7 `update_serial` is set iff a cause acted or it was set (R191). -/
theorem beforeF7_updateSerial (s : State) :
    (beforeF7 s).updateSerial = true ↔ ¬(actingCauses s = 0 ∧ s.updateSerial = false) := by
  rw [beforeF7, cooldown_updateSerial, frameF5_updateSerial, beforeF5, releaseA_updateSerial, frameF3_updateSerial,
    pressedA_frameF2_tick, frameF2_updateSerial, tick_due_iff, tick_updateSerial, ← beforeF5]
  simp only [actingCauses, Nat.add_eq_zero_iff, ite_eq_right_iff, Nat.one_ne_zero, imp_false,
    ← Bool.not_eq_true]
  tauto

theorem frame_world (s : State) : (frame s).world = (beforeF7 s).world :=
  congrArg Prod.fst (boardRecord_frameF7 (beforeF7 s))

/-- Settles O56: the clears sent before F7, and the rendering F7 sends. -/
theorem serialStreamOfAFrame : Obligations.SerialStreamOfAFrame := by
  intro s
  have hrendering : (if actingCauses s = 0 ∧ s.updateSerial = false then [] else renderRows (frame s).world) =
      if (beforeF7 s).updateSerial = true then renderRows (beforeF7 s).world else [] := by
    simp only [beforeF7_updateSerial, ite_not, frame_world]
  have hframe : sends (clears (actingCauses s) ++
      if (beforeF7 s).updateSerial = true then renderRows (beforeF7 s).world else []) s (frame s) :=
    ((beforeF7_emits s).trans (frameF7_emits (beforeF7 s))).sends
  rw [← hrendering] at hframe
  exact hframe

end Sys2Proof.Machine
end

section
/-! Frame controller (42_frame_controller.md), sections 1 and 2: the machine's steps through a frame reach the state of
the whole-frame function. -/

namespace Sys2Proof.Machine

/-! ### Operations that neither read nor write the point (log entry 6) -/

@[simp] theorem goTo_goTo (p q : FramePoint) (s : State) : goTo q (goTo p s) = goTo q s := rfl

theorem lineOk_goTo (p : FramePoint) (s : State) : lineOk (goTo p s) = ((lineOk s).1, goTo p (lineOk s).2) := by
  unfold lineOk
  rw [goTo_params]
  split <;> rfl

theorem writeRow_goTo (r : Fin 5) (on : Bool) (p : FramePoint) (s : State) :
    writeRow r on (goTo p s) = goTo p (writeRow r on s) := by
  simp only [writeRow, lineOk_goTo]
  split <;> rfl

theorem writeCol_goTo (c : Fin 5) (on : Bool) (p : FramePoint) (s : State) :
    writeCol c on (goTo p s) = goTo p (writeCol c on s) := by
  simp only [writeCol, lineOk_goTo]
  split <;> rfl

theorem driveCell_goTo (r c : Fin 5) (on : Bool) (p : FramePoint) (s : State) :
    driveCell r c on (goTo p s) = goTo p (driveCell r c on s) := by
  rw [driveCell, writeRow_goTo, writeCol_goTo, driveCell]

theorem scanStep_goTo (p : FramePoint) (s : State) : scanStep (goTo p s) = goTo p (scanStep s) := by
  cases hpending : pendingLights s.world s.sstate with
  | nil => rw [scanStep_of_pendingLights_nil hpending, scanStep_of_pendingLights_nil (s := goTo p s) hpending]
  | cons l rest =>
    rw [scanStep_of_pendingLights hpending, scanStep_of_pendingLights (s := goTo p s) hpending, driveCell_goTo]
    rfl

theorem writeSerial_goTo (b : Byte) (p : FramePoint) (s : State) :
    writeSerial b (goTo p s) = goTo p (writeSerial b s) := by
  have hok : serialOk (goTo p s) = ((serialOk s).1, goTo p (serialOk s).2) := by
    unfold serialOk
    rw [goTo_params]
    split <;> rfl
  simp only [writeSerial, hok]
  split <;> rfl

theorem emit_goTo (bytes : List Byte) (p : FramePoint) (s : State) : emit bytes (goTo p s) = goTo p (emit bytes s) := by
  induction bytes generalizing s with
  | nil => rfl
  | cons b rest ih => rw [emit, writeSerial_goTo, ih, emit]

theorem interleave_goTo (p : FramePoint) (s : State) : interleave (goTo p s) = goTo p (interleave s) := by
  unfold interleave
  rw [goTo_outbox]
  split
  · rfl
  · exact emit_goTo (s.outbox.take (drawBurst s).1) p { (drawBurst s).2 with outbox := s.outbox.drop (drawBurst s).1 }

theorem scanTurn_goTo (p : FramePoint) (s : State) : scanTurn (goTo p s) = goTo p (scanTurn s) := by
  rw [scanTurn, interleave_goTo, scanStep_goTo, scanTurn]

theorem iterate_scanTurn_goTo (n : Nat) (p : FramePoint) (s : State) :
    scanTurn^[n] (goTo p s) = goTo p (scanTurn^[n] s) :=
  Function.Commute.iterate_left (f := scanTurn) (g := goTo p) (scanTurn_goTo p) n s

theorem afterInstr_goTo (i : Instr) (p : FramePoint) (s : State) :
    afterInstr i (goTo p s) = goTo p (afterInstr i s) := by
  cases i with
  | light on row col =>
    simp only [afterInstr, lightLines]
    split
    · exact driveCell_goTo _ _ _ p s
    all_goals rfl
  | nop | step | rand | load | cpl | scan => rfl

theorem afterGeneration_goTo (p : FramePoint) (s : State) : afterGeneration (goTo p s) = goTo p (afterGeneration s) := by
  rw [afterGeneration, clearTerminal, emit_goTo, compareSnapshot_eq, afterGeneration, compareSnapshot_eq]
  rfl

theorem afterPressA_goTo (p : FramePoint) (s : State) : afterPressA (goTo p s) = goTo p (afterPressA s) :=
  emit_goTo clearBytes p { s with aIgnore := true, updateSerial := true }

theorem afterPressB_goTo (p : FramePoint) (s : State) : afterPressB (goTo p s) = goTo p (afterPressB s) :=
  emit_goTo clearBytes p { s with bIgnore := true, updateSerial := true }

theorem releaseA_goTo (p : FramePoint) (s : State) : releaseA (goTo p s) = goTo p (releaseA s) := by
  cases hlatch : s.aIgnore with
  | false => rw [releaseA_of_clear hlatch, releaseA_of_clear (s := goTo p s) hlatch]
  | true => rw [releaseA_of_set hlatch, releaseA_of_set (s := goTo p s) hlatch]; rfl

theorem sampleB_goTo (p : FramePoint) (s : State) : sampleB (goTo p s) = ((sampleB s).1, goTo p (sampleB s).2) := by
  by_cases hclear : s.aIgnore = false ∧ s.bIgnore = false
  · obtain ⟨ha, hb⟩ := hclear
    rw [sampleB_of_clear ha hb, sampleB_of_clear (s := goTo p s) ha hb]
    rfl
  · have hkept : sampleB s = (false, s) := if_neg hclear
    rw [hkept]
    exact if_neg hclear

theorem cooldown_goTo (p : FramePoint) (s : State) : cooldown (goTo p s) = goTo p (cooldown s) := by
  by_cases hdone : s.bIgnore = false ∨ 100 ≤ s.bIgnoreCount
  · rw [cooldown_of_done hdone, cooldown_of_done (s := goTo p s) hdone]
    rfl
  · obtain ⟨hset, hlt⟩ : s.bIgnore = true ∧ s.bIgnoreCount < 100 := by simpa using hdone
    rw [cooldown_of_below hset hlt, cooldown_of_below (s := goTo p s) hset hlt]
    rfl

theorem finishPaint_goTo (p : FramePoint) (s : State) : finishPaint (goTo p s) = goTo p (finishPaint s) := by
  have hrest : emit s.outbox (goTo p { s with outbox := [] }) = goTo p (emit s.outbox { s with outbox := [] }) :=
    emit_goTo _ p _
  exact congrArg (fun t : State => { t with updateSerial := false }) hrest

/-! ### Runs of the machine -/

/-- The machine comes from `s` to `t` in some number of steps. -/
def Reaches (s t : State) : Prop := ∃ n, Host.Core.run core n s = .next t

theorem Reaches.refl (s : State) : Reaches s s := ⟨0, rfl⟩

theorem Reaches.head {s t u : State} (hstep : step s = .next t) (h : Reaches t u) : Reaches s u := by
  obtain ⟨n, hrun⟩ := h
  exact ⟨n + 1, (run_succ_of_step hstep n).trans hrun⟩

/-- A run that completes has a first step. -/
theorem step_of_run_succ {n : Nat} {s t : State} (hrun : Host.Core.run core (n + 1) s = .next t) :
    ∃ u, step s = .next u ∧ Host.Core.run core n u = .next t := by
  simp only [Host.Core.run] at hrun
  split at hrun
  next u hstep => exact ⟨u, hstep, hrun⟩
  all_goals cases hrun

theorem Reaches.trans {s t u : State} (hst : Reaches s t) (htu : Reaches t u) : Reaches s u := by
  obtain ⟨n, hrun⟩ := hst
  induction n generalizing s with
  | zero => exact Host.Outcome.next.inj hrun ▸ htu
  | succ n ih =>
    obtain ⟨v, hstep, hrest⟩ := step_of_run_succ hrun
    exact .head hstep (ih hrest)

/-! ### The turns inside a frame (R75, R183) -/

/-- The frame controller's turn, with F1 on record: `FrameStart` but for the row bytes. The whole-frame function leaves
the point alone. -/
def HostReady (s : State) : Prop :=
  s.rst = false ∧ s.sstate = .idle ∧ s.cmdValid = false ∧ s.driver = .frameController ∧ s.point = .f1

theorem frameStart_iff (s : State) : FrameStart s ↔ HostReady s ∧ s.outbox = [] := by
  rw [FrameStart, HostReady]
  tauto

/-- At whatever point, the host's turn is a step. -/
theorem reaches_hostStep {s : State} (h : HostReady s) (p : FramePoint) : Reaches (goTo p s) (hostStep (goTo p s)) := by
  obtain ⟨hrst, hidle, hvalid, hdriver, -⟩ := h
  have hstep : step (goTo p s) = .next (driverStep (goTo p s)) := step_driver hrst ((not_busy_iff s).2 hidle) hvalid
  rw [driverStep_of_frameController (s := goTo p s) hdriver] at hstep
  exact .head hstep (.refl _)

/-- A command presented at the host's turn is accepted in the next step (R75, R183). -/
theorem reaches_issued {s : State} (h : HostReady s) (i : Instr) (p : FramePoint) :
    Reaches (goTo p (present (encode i) s)) (goTo p (afterInstr i (handshake i s))) := by
  obtain ⟨hrst, hidle, -, -, -⟩ := h
  have hstep := step_accept (s := goTo p (present (encode i) s)) hrst ((not_busy_iff s).2 hidle) rfl (decode_encode i)
  rw [exec_eq] at hstep
  exact .head hstep (afterInstr_goTo i p (handshake i s) ▸ .refl _)

/-! The operations of a frame lead from one turn of the host to another, all but SCAN, which makes the sequencer busy. -/

theorem handshake_hostReady {s : State} (h : HostReady s) (i : Instr) : HostReady (handshake i s) := by
  obtain ⟨hrst, hidle, -, hdriver, hpoint⟩ := h
  exact ⟨hrst, hidle, rfl, hdriver, hpoint⟩

theorem randWorld_hostReady {s : State} (h : HostReady s) : HostReady (randWorld s) := by
  rw [randWorld_eq]; exact h

theorem afterGeneration_hostReady {s : State} (h : HostReady s) : HostReady (afterGeneration s) := by
  obtain ⟨_, _, hafter, -⟩ := afterGeneration_cases s
  rw [hafter]; exact h

theorem frameF2_hostReady {s : State} (h : HostReady s) : HostReady (frameF2 s) := by
  obtain ⟨-, hframe⟩ | ⟨-, _, _, _, _, _, _, hframe⟩ := frameF2_cases s <;> rw [hframe]
  · exact h
  · exact handshake_hostReady h .step

theorem frameF3_hostReady {s : State} (h : HostReady s) : HostReady (frameF3 s) := by
  obtain ⟨-, hframe⟩ | ⟨-, _, _, _, _, hframe⟩ := frameF3_cases s <;> rw [hframe]
  · exact h
  · exact handshake_hostReady h .rand

theorem releaseA_hostReady {s : State} (h : HostReady s) : HostReady (releaseA s) := by
  obtain ⟨_, _, hrelease, -⟩ := releaseA_cases s
  rw [hrelease]; exact h

theorem sampleB_hostReady {s : State} (h : HostReady s) : HostReady (sampleB s).2 := by
  obtain ⟨_, _, hsample, -⟩ := sampleB_cases s
  rw [hsample]; exact h

theorem frameF5_hostReady {s : State} (h : HostReady s) : HostReady (frameF5 s) := by
  obtain ⟨-, hframe⟩ | ⟨-, _, _, hframe⟩ := frameF5_cases s <;> rw [hframe]
  · exact sampleB_hostReady h
  · exact handshake_hostReady h .cpl

theorem cooldown_hostReady {s : State} (h : HostReady s) : HostReady (cooldown s) := by
  unfold cooldown
  split <;> exact h

/-! ### The phases of a frame (R172 to R178) -/

theorem hostStep_f2Stepped (s : State) : hostStep (goTo .f2Stepped s) = goTo .f2Done
    (if stagnant (afterGeneration s) then present (encode .rand) (afterGeneration s) else afterGeneration s) := by
  have hstagnant : stagnant (goTo .f2Stepped (afterGeneration s)) = stagnant (afterGeneration s) := rfl
  simp only [hostStep, goTo_point, afterGeneration_goTo, hstagnant]
  split <;> rfl

/-- F2: STEP, the clear and the compare, and a RAND where the board is stagnant (R173). -/
theorem reaches_frameF2 {s : State} (h : HostReady s) : Reaches (goTo .f2 s) (goTo .f3 (frameF2 s)) := by
  have htest := reaches_hostStep h .f2
  have hdue : generationDue (goTo .f2 s) = generationDue s := rfl
  simp only [hostStep, goTo_point, hdue] at htest
  cases hgeneration : generationDue s with
  | false => simpa [frameF2, hgeneration] using htest
  | true =>
    have hstepped : HostReady (stepWorld (handshake .step s)) := handshake_hostReady h .step
    have hcompared := afterGeneration_hostReady hstepped
    have hcompare := reaches_hostStep hstepped .f2Stepped
    rw [hostStep_f2Stepped] at hcompare
    simp only [hgeneration, if_true] at htest
    simp only [frameF2, hgeneration, if_true]
    refine (htest.trans (reaches_issued h .step .f2Stepped)).trans (hcompare.trans ?_)
    split
    next =>
      exact (reaches_issued hcompared .rand .f2Done).trans
        (reaches_hostStep (randWorld_hostReady (handshake_hostReady hcompared .rand)) .f2Done)
    next => exact reaches_hostStep hcompared .f2Done

/-- F3: a reading of A, and on a press the delay, RAND and the clear (R174, R192). -/
theorem reaches_frameF3 {s : State} (h : HostReady s) : Reaches (goTo .f3 s) (goTo .f4 (frameF3 s)) := by
  have htaken : HostReady (takeReadingA s) := h
  have hsample := reaches_hostStep h .f3
  have hreading : pressedA (goTo .f3 s) = (!readingA s, goTo .f3 (takeReadingA s)) := pressedA_eq_reading _
  simp only [hostStep, goTo_point, hreading, goTo_goTo] at hsample
  cases hpressed : readingA s with
  | true => simpa [hpressed, frameF3_of_high] using hsample
  | false =>
    have hdone := reaches_hostStep (randWorld_hostReady (handshake_hostReady htaken .rand)) .f3Done
    simp only [hostStep, goTo_point, afterPressA_goTo, goTo_goTo] at hdone
    simp only [hpressed, Bool.not_false, if_true] at hsample
    rw [frameF3_eq_of_low hpressed]
    exact ((hsample.trans (reaches_hostStep htaken .f3Delay)).trans (reaches_hostStep htaken .f3Issue)).trans
      ((reaches_issued htaken .rand .f3Done).trans hdone)

/-- F5: the sample of B, and on a press the delay, CPL and the clear (R176, R192). -/
theorem reaches_frameF5 {s : State} (h : HostReady s) : Reaches (goTo .f5 s) (goTo .f6 (frameF5 s)) := by
  have htaken := sampleB_hostReady h
  have hsample := reaches_hostStep h .f5
  simp only [hostStep, goTo_point, sampleB_goTo, goTo_goTo] at hsample
  cases hpressed : (sampleB s).1 with
  | false => simpa [hpressed, frameF5_of_not_pressed] using hsample
  | true =>
    have hcomplemented : HostReady (complementWorld (handshake .cpl (sampleB s).2)) := handshake_hostReady htaken .cpl
    have hdone := reaches_hostStep hcomplemented .f5Done
    simp only [hostStep, goTo_point, afterPressB_goTo, goTo_goTo] at hdone
    simp only [hpressed, if_true] at hsample
    rw [frameF5_eq_of_pressed hpressed]
    exact ((hsample.trans (reaches_hostStep htaken .f5Delay)).trans (reaches_hostStep htaken .f5Issue)).trans
      ((reaches_issued htaken .cpl .f5Done).trans hdone)

/-- The sweep has ended with the host's turn (R147, R183). -/
theorem paintEnd_hostReady {s : State} (h : HostReady s) : HostReady (paintEnd s) := by
  obtain ⟨hrst, -, -, hdriver, hpoint⟩ := h
  have hidle := paintEnd_sstate s
  obtain ⟨_, _, _, _, _, _, hrun⟩ := runScan_frame 50 (paintStart s)
  rw [paintEnd, hrun] at hidle ⊢
  exact ⟨hrst, hidle, rfl, hdriver, hpoint⟩

/-- F7: the row bytes, SCAN and its whole sweep, and the bytes left (R178). -/
theorem reaches_frameF7 {s : State} (h : HostReady s) : Reaches (goTo .f7 s) (goTo .f1 (frameF7 s)) := by
  have hfilled : HostReady (fillOutbox s) := h
  have hissued : Reaches (goTo .f7 s) (goTo .f7Done (paintStart s)) :=
    (reaches_hostStep h .f7).trans (reaches_issued hfilled .scan .f7Done)
  have hsweep : Reaches (goTo .f7Done (paintStart s)) (goTo .f7Done (paintEnd s)) := by
    obtain ⟨hrst, -⟩ := h
    rw [paintEnd_eq_iterate, ← iterate_scanTurn_goTo]
    exact ⟨_, run_scanTurn (s := goTo .f7Done (paintStart s)) hrst le_rfl⟩
  have hdone := reaches_hostStep (paintEnd_hostReady h) .f7Done
  simp only [hostStep, goTo_point, finishPaint_goTo] at hdone
  exact hissued.trans (hsweep.trans hdone)

/-- A whole frame, from F1 to F1 (R179). -/
theorem reaches_frame {s : State} (h : HostReady s) : Reaches (goTo .f1 s) (goTo .f1 (frame s)) := by
  have hF1 : HostReady (tick s) := h
  have hF2 := frameF2_hostReady hF1
  have hF3 := frameF3_hostReady hF2
  have hF4 : HostReady (beforeF5 s) := releaseA_hostReady hF3
  have hF5 := frameF5_hostReady hF4
  have hF6 : HostReady (beforeF7 s) := cooldown_hostReady hF5
  have hrelease := reaches_hostStep hF3 .f4
  have hcooldown := reaches_hostStep hF5 .f6
  simp only [hostStep, goTo_point, releaseA_goTo, cooldown_goTo, goTo_goTo] at hrelease hcooldown
  exact (reaches_hostStep h .f1).trans <| (reaches_frameF2 hF1).trans <| (reaches_frameF3 hF2).trans <|
    hrelease.trans <| (reaches_frameF5 hF4).trans <| hcooldown.trans (reaches_frameF7 hF6)

theorem frame_hostReady {s : State} (h : HostReady s) : HostReady (frame s) := by
  obtain ⟨hrst, -, -, hdriver, hpoint⟩ :=
    cooldown_hostReady (frameF5_hostReady (releaseA_hostReady (frameF3_hostReady (frameF2_hostReady (s := tick s) h))))
  obtain ⟨_, _, _, _, _, _, hframe⟩ := frameF7_frame (beforeF7 s)
  rw [frame_eq, hframe]
  exact ⟨hrst, rfl, rfl, hdriver, hpoint⟩

theorem frame_outbox (s : State) : (frame s).outbox = [] := by
  obtain ⟨_, _, _, _, _, _, hframe⟩ := frameF7_frame (beforeF7 s)
  rw [frame_eq, hframe]

theorem goTo_eq_self {s : State} {p : FramePoint} (hpoint : s.point = p) : goTo p s = s := by
  subst hpoint
  rfl

/-- Settles O52: the run of a frame from F1 to F1, at both ends of which the point is F1. -/
theorem stepsRefineTheWholeFrame : Obligations.StepsRefineTheWholeFrame := by
  intro s hstart
  obtain ⟨h, -⟩ := (frameStart_iff s).1 hstart
  have hstart' : FrameStart (frame s) := (frameStart_iff _).2 ⟨frame_hostReady h, frame_outbox s⟩
  have hrun := reaches_frame h
  rw [goTo_eq_self hstart.1, goTo_eq_self hstart'.1] at hrun
  exact ⟨hstart', hrun⟩

end Sys2Proof.Machine
end

section
/-! Exceptions (60_exceptions.md): no fault and no refusal exists (R11, R220, R222). -/

namespace Sys2Proof.Machine

/-- Settles O35: each case of what a step can do names the state it answers; an illegal word only raises ILL. -/
theorem everyStepAnswersANextState : Obligations.EveryStepAnswersANextState := by
  intro s
  obtain ⟨-, hreset⟩ | ⟨-, -, hscan⟩ | ⟨-, -, -, ⟨_, -, hcommand⟩ | ⟨_, -, hillegal⟩⟩ | ⟨-, -, -, hdriver⟩ :=
    step_cases s
  · exact ⟨_, hreset⟩
  · exact ⟨_, hscan⟩
  · exact ⟨_, hcommand⟩
  · exact ⟨_, hillegal⟩
  · exact ⟨_, hdriver⟩

end Sys2Proof.Machine
end

section
/-! Reset and boot (70_reset_and_hazards.md): the reset values, the step with `rst` asserted, the invariants at reset,
and the boot sequence. -/

namespace Sys2Proof.Machine

/-! ### Reset (R250 to R252) -/

theorem linesIdle_reset : State.reset.linesIdle = true := (linesIdle_iff _).2 ⟨rfl, rfl⟩

theorem busy_reset : State.reset.busy = false := (not_busy_iff _).2 rfl

theorem hostRanges_reset : HostRanges State.reset := applyReset_hostRanges State.reset

/-- No command is presented at reset, the sequencer is idle and no row byte is left, so all that `FrameRun` says of them
holds; the lines of an idle sequencer are those of R251. -/
theorem frameRun_reset : FrameRun State.reset := by
  have hfollow : linesFollowScan State.reset = true :=
    (linesFollowScan_of_not_dwell fun _ => ScanState.noConfusion).trans linesIdle_reset
  exact ⟨rfl, rfl, rfl, rfl, Bool.noConfusion, fun hbusy => absurd rfl ((busy_iff _).1 hbusy), hfollow,
    fun hne => absurd rfl hne⟩

/-- Settles O38: the registers are read off the reset state; BUSY, the idle lines and the lit set follow from them. -/
theorem resetValues : Obligations.ResetValues :=
  ⟨rfl, rfl, rfl, rfl, rfl, rfl, rfl, busy_reset, rfl, linesIdle_reset, litCells_of_linesIdle linesIdle_reset,
    rfl, rfl, rfl, rfl, rfl, rfl, rfl, rfl, rfl⟩

/-- Settles O39: an asserted `rst` takes the turn before all else. -/
theorem resetEvent : Obligations.ResetEvent := fun _ => step_of_rst

/-- Settles O42. -/
theorem invariantsHoldAtReset : Obligations.InvariantsHoldAtReset := ⟨hostRanges_reset, frameRun_reset⟩

/-! ### Boot (R253) -/

/-- The step in which the frame controller acts (R170, R183). -/
theorem step_hostStep {s : State} (hrst : s.rst = false) (hbusy : s.busy = false) (hvalid : s.cmdValid = false)
    (hdriver : s.driver = .frameController) : step s = .next (hostStep s) := by
  rw [step_driver hrst hbusy hvalid, driverStep_of_frameController hdriver]

/-- On an idle port a command presented and accepted leaves its word and nothing else (R75; log entry 12). -/
theorem handshake_of_port_idle {s : State} (hvalid : s.cmdValid = false) (i : Instr) :
    handshake i s = { s with cmd := encode i } := by
  simp only [handshake, takeCommand, present, hvalid]

/-- The step in which the block accepts the command the host has presented at a point (R75, R183). -/
theorem step_issued {s : State} (hrst : s.rst = false) (hbusy : s.busy = false) (i : Instr) (p : FramePoint) :
    step (goTo p (present (encode i) s)) = .next (goTo p (afterInstr i (handshake i s))) := by
  rw [step_accept (s := goTo p (present (encode i) s)) hrst hbusy rfl (decode_encode i), exec_eq]
  exact congrArg Host.Outcome.next (afterInstr_goTo i p (handshake i s))

/-- The boot sequence: the host presents RAND, the block accepts it, the host goes on to F1 (R253). -/
theorem run_boot {s : State} (hrst : s.rst = false) (hbusy : s.busy = false) (hvalid : s.cmdValid = false)
    (hdriver : s.driver = .frameController) (hpoint : s.point = .boot) :
    Host.Core.run core 3 s = .next (goTo .f1 (randWorld (handshake .rand s))) := by
  have hissue : step s = .next (goTo .bootDone (present (encode .rand) s)) := by
    rw [step_hostStep hrst hbusy hvalid hdriver, hostStep, hpoint]
  have haccept := step_issued hrst hbusy .rand .bootDone
  have hleave := step_hostStep (s := goTo .bootDone (randWorld (handshake .rand s))) hrst hbusy rfl hdriver
  rw [run_succ_of_step hissue, run_succ_of_step haccept]
  exact run_succ_of_step hleave 0

/-- Settles O51: the state `run_boot` reaches is that of one RAND on an idle port, moved to F1. -/
theorem bootIsOneRand : Obligations.BootIsOneRand := by
  intro s hrst hbusy hvalid hdriver hpoint
  refine ⟨(randWorld s).world, ?_, getLsbD_randWorld s⟩
  rw [run_boot hrst hbusy hvalid hdriver hpoint, handshake_of_port_idle hvalid, randWorld_eq]
  rfl

end Sys2Proof.Machine
end
